-- ==== Sys2Proof/Word.lean ====
section
/-! DEFINITION. The bit-vector types of the block: 32-bit bus words, bytes, 64-bit packet words. -/
namespace Sys2Proof

/-- A register or bus word, 32 bits (10_state.md R22, 20_memory.md R68). -/
abbrev Word := BitVec 32

/-- One byte of the host window. -/
abbrev Byte := BitVec 8

/-- A wire packet, 64 bits (30_encoding.md R81). -/
abbrev PacketWord := BitVec 64

end Sys2Proof
end

