-- ==== Sys2Proof/Config.lean ====
section
/-! DEFINITION. What is fixed when an instance of the block is built (00_scope.md R7, 70_reset_and_hazards.md
R284), and the free values. A model "takes them as arguments": the parameters are a plain record that State
carries and no step writes, so that every statement about every state holds for every choice of them
(DESIGN CHOICE, log 1). -/
namespace Sys2Proof.Machine

/-- The parameters of one instance (00_scope.md R7, 20_memory.md R62). -/
structure Params where
  /-- CMD_UP, OPEN (92 D20). -/
  cmdUp : BitVec 8
  /-- CMD_DOWN, OPEN (92 D20). -/
  cmdDown : BitVec 8
  /-- CMD_PROGRAM, OPEN (92 D20). -/
  cmdProgram : BitVec 8
  /-- CMD_RELEASE, OPEN (92 D20). -/
  cmdRelease : BitVec 8
  /-- RX_CAP, the samples RXMEM holds (92 D22). -/
  rxCap : Nat
  /-- TX_CAP, the pairs TXMEM holds (92 D17). -/
  txCap : Nat
  /-- MIN_RX_SAMPLES (43_frame_sync.md R196; a parameter by 92 D12). -/
  minRxSamples : Nat
  /-- BASE is `window` times 2^26: "It must be aligned to 2^26 bytes" (20_memory.md R62). -/
  window : Nat
deriving DecidableEq, Repr

/-- CMD_STOP, the one command code the source gives (00_scope.md R6). -/
def Config.cmdStop : BitVec 8 := 0x23#8

/-- The open codes are "each distinct from the others and from CMD_STOP" (00_scope.md R7). -/
abbrev Config.distinctCodes (up down program release : BitVec 8) : Prop :=
  [Config.cmdStop, up, down, program, release].Nodup

/-- The constraints of 00_scope.md R7 on the parameters. -/
abbrev Params.Valid (c : Params) : Prop :=
  Config.distinctCodes c.cmdUp c.cmdDown c.cmdProgram c.cmdRelease ∧
  1648 ≤ c.rxCap ∧ c.rxCap ≤ 2 ^ 20 ∧ 824 ≤ c.txCap ∧ c.txCap ≤ 2 ^ 20

/-- BASE, the byte address of the host window (20_memory.md R62). -/
def Params.base (c : Params) : Nat := c.window * 2 ^ 26

/-- FREE VALUE: the open command codes of the instance that comes out of reset, up, down, program, release
at 0, 1, 2, 3 (DESIGN CHOICE, log 3). -/
opaque Config.openCode : Nat → BitVec 8

/-- FREE VALUE: the platform's window number (DESIGN CHOICE, log 4). -/
opaque Config.openWindow : Nat

/-- FREE VALUE: the word a never-written buffer word holds after the given power-on reset (the first
argument counts them), at the given window offset (93 I4, I5; DESIGN CHOICE, log 9). -/
opaque Config.powerOnWord : Nat → Nat → Word

/-- The parameters of the instance that comes out of reset: RX_CAP, TX_CAP and MIN_RX_SAMPLES at the values
00_scope.md R7 names, the open codes free among the distinct ones (log 2, log 3). Where the free codes are
not distinct, which 00_scope.md R7 rules out, the labelled assignment of 95_test_vectors.md stands in. -/
def Params.default : Params :=
  let free := Config.distinctCodes (Config.openCode 0) (Config.openCode 1) (Config.openCode 2)
    (Config.openCode 3)
  { cmdUp := if free then Config.openCode 0 else 0x10#8
    cmdDown := if free then Config.openCode 1 else 0x20#8
    cmdProgram := if free then Config.openCode 2 else 0x30#8
    cmdRelease := if free then Config.openCode 3 else 0x40#8
    rxCap := 2048
    txCap := 1024
    minRxSamples := 856
    window := Config.openWindow }

end Sys2Proof.Machine
end

