-- ==== Sys2Proof/Syntax.lean ====
section
/-! DEFINITION. The commands of the block (30_encoding.md R84), one constructor per row of
spec/opcode_table.json. -/
namespace Sys2Proof

/-- The four timing templates, in the order of TSEL (30_encoding.md R83, 00_scope.md R13). -/
inductive Template where
  /-- TSEL 0, the framing pair before the bits. -/
  | pktPrefix
  /-- TSEL 1, the framing pair after the bits. -/
  | pktSuffix
  /-- TSEL 2, a 1 bit. -/
  | one
  /-- TSEL 3, a 0 bit. -/
  | zero
deriving DecidableEq, Repr

/-- A command. OFF and N are counts of samples, "unsigned", never "sign-extended, scaled or shifted"
(30_encoding.md R83), so they are natural numbers; WellFormed bounds them by their fields. -/
inductive Instr where
  /-- NOP (44_control.md R230). -/
  | nop
  /-- CKSUM (40_packet_codec.md R102). -/
  | cksum
  /-- PACK (40_packet_codec.md R105). -/
  | pack
  /-- UNPACK (40_packet_codec.md R110). -/
  | unpack
  /-- TX_CLEAR (41_modulator.md R133). -/
  | txClear
  /-- EMIT_PKT (41_modulator.md R136). -/
  | emitPkt
  /-- TX_FRAME (43_frame_sync.md R194). -/
  | txFrame
  /-- RX_MATCH T, OFF (42_demodulator.md R155). -/
  | rxMatch (t : Template) (off : Nat)
  /-- RX_EXPECT T (42_demodulator.md R157). -/
  | rxExpect (t : Template)
  /-- RX_ADVANCE N (42_demodulator.md R159). -/
  | rxAdvance (n : Nat)
  /-- RX_PKT (42_demodulator.md R162). -/
  | rxPkt
  /-- RX_FRAME (43_frame_sync.md R201). -/
  | rxFrame
  /-- SOFT_RESET (44_control.md R232). -/
  | softReset
deriving DecidableEq, Repr

end Sys2Proof
end

