-- ==== Sys2Proof/WellFormed.lean ====
section
/-! DEFINITION. Which commands a command word can encode: each operand fits its field
(30_encoding.md R82, R83). -/
namespace Sys2Proof

/-- OFF is 8 bits and N is 16 bits (30_encoding.md R83: "from 0 to 255", "from 0 to 65535"); every other
operand is a closed set of names. -/
abbrev Instr.WellFormed : Instr → Prop
  | .nop => True
  | .cksum => True
  | .pack => True
  | .unpack => True
  | .txClear => True
  | .emitPkt => True
  | .txFrame => True
  | .rxMatch _ off => off ≤ 255
  | .rxExpect _ => True
  | .rxAdvance n => n ≤ 65535
  | .rxPkt => True
  | .rxFrame => True
  | .softReset => True

end Sys2Proof
end

