-- ==== Sys2Proof/Decode.lean ====
section
/-! DEFINITION. The command word (30_encoding.md R80 to R86): the decoder, total on every word and every
string of bytes, and the encoder. -/
namespace Sys2Proof

/-- Why bits are no command. -/
inductive Reject where
  /-- A reserved opcode (30_encoding.md R85); the block answers it with ILLEGAL_CMD. -/
  | reservedOpcode (op : BitVec 8)
  /-- A command word "is exactly 32 bits" (30_encoding.md R86); this many bytes are none. -/
  | notOneWord (bytes : Nat)
deriving DecidableEq, Repr

/-- TSEL's numbering (30_encoding.md R83). -/
def Template.tsel : Template → BitVec 2
  | .pktPrefix => 0#2
  | .pktSuffix => 1#2
  | .one => 2#2
  | .zero => 3#2

/-- "All four values are legal" (30_encoding.md R83). -/
def Template.ofTsel (t : BitVec 2) : Template :=
  match t.toNat with
  | 0 => .pktPrefix
  | 1 => .pktSuffix
  | 2 => .one
  | _ => .zero

/-- OP = w[7:0] (30_encoding.md R82). -/
def opField (w : Word) : BitVec 8 := w.extractLsb' 0 8

/-- TSEL = w[9:8] (30_encoding.md R82). -/
def tselField (w : Word) : BitVec 2 := w.extractLsb' 8 2

/-- OFF = w[23:16] (30_encoding.md R82). -/
def offField (w : Word) : BitVec 8 := w.extractLsb' 16 8

/-- N = w[31:16] (30_encoding.md R82). -/
def countField (w : Word) : BitVec 16 := w.extractLsb' 16 16

/-- The opcode map of 30_encoding.md R84; the reserved opcodes of R85 are rejected by name. -/
def decode (w : Word) : Except Reject Instr :=
  match (opField w).toNat with
  | 0x00 => .ok .nop
  | 0x01 => .ok .cksum
  | 0x02 => .ok .pack
  | 0x03 => .ok .unpack
  | 0x04 => .ok .txClear
  | 0x05 => .ok .emitPkt
  | 0x06 => .ok .txFrame
  | 0x07 => .ok (.rxMatch (Template.ofTsel (tselField w)) (offField w).toNat)
  | 0x08 => .ok (.rxExpect (Template.ofTsel (tselField w)))
  | 0x09 => .ok (.rxAdvance (countField w).toNat)
  | 0x0A => .ok .rxPkt
  | 0x0B => .ok .rxFrame
  | 0x0F => .ok .softReset
  | _ => .error (.reservedOpcode (opField w))

/-- A command word as its bytes, the byte of bits 7:0 first: the order spec/opcode_table.json numbers bits
in. The bus itself carries whole words (20_memory.md R68). -/
def decodeBytes : List Byte → Except Reject Instr
  | [b0, b1, b2, b3] => decode (b3 ++ b2 ++ b1 ++ b0)
  | bs => .error (.notOneWord bs.length)

/-- The opcode of each command (30_encoding.md R84). -/
def Instr.opcode : Instr → BitVec 8
  | .nop => 0x00#8
  | .cksum => 0x01#8
  | .pack => 0x02#8
  | .unpack => 0x03#8
  | .txClear => 0x04#8
  | .emitPkt => 0x05#8
  | .txFrame => 0x06#8
  | .rxMatch _ _ => 0x07#8
  | .rxExpect _ => 0x08#8
  | .rxAdvance _ => 0x09#8
  | .rxPkt => 0x0A#8
  | .rxFrame => 0x0B#8
  | .softReset => 0x0F#8

/-- Format N of 30_encoding.md R82, the ignored bits 0 (R90: "with all other bits 0"). -/
def encodeN (op : BitVec 8) : Word := 0#24 ++ op

/-- Format M of 30_encoding.md R82: OFF at 23:16, TSEL at 9:8. -/
def encodeM (op : BitVec 8) (t : Template) (off : Nat) : Word :=
  0#8 ++ BitVec.ofNat 8 off ++ 0#6 ++ t.tsel ++ op

/-- Format A of 30_encoding.md R82: N at 31:16. -/
def encodeA (op : BitVec 8) (n : Nat) : Word := BitVec.ofNat 16 n ++ 0#8 ++ op

/-- The command word the spec's notation writes for a command (30_encoding.md R90). -/
def encode (i : Instr) : Word :=
  match i with
  | .nop => encodeN i.opcode
  | .cksum => encodeN i.opcode
  | .pack => encodeN i.opcode
  | .unpack => encodeN i.opcode
  | .txClear => encodeN i.opcode
  | .emitPkt => encodeN i.opcode
  | .txFrame => encodeN i.opcode
  | .rxMatch t off => encodeM i.opcode t off
  | .rxExpect t => encodeM i.opcode t 0
  | .rxAdvance n => encodeA i.opcode n
  | .rxPkt => encodeN i.opcode
  | .rxFrame => encodeN i.opcode
  | .softReset => encodeN i.opcode

/-- The word whose low `nbits` bits are `w` and whose other bits are 0. -/
def tableWord (nbits w : Nat) : Word := BitVec.ofNat 32 (w % 2 ^ nbits)

/-- What the decoder reads from a row's bits, numbered as spec/opcode_table.json numbers them. -/
def decodeTableWord (nbits w : Nat) : Option Instr :=
  match decode (tableWord nbits w) with
  | .ok i => some i
  | .error _ => none

end Sys2Proof
end

