-- ==== Sys2Proof/Machine/State.lean ====
section
/-! DEFINITION. The state of one instance of the block (10_state.md R20) as plain data, the reasons a step
stops, and the state after power-on reset (70_reset_and_hazards.md R280). -/
namespace Sys2Proof.Machine

/-- The result codes of STATUS.ERR (60_exceptions.md R251). Codes 10 to 15 are "never written", so they
have no name here. -/
inductive ErrCode where
  /-- 0: success. -/
  | none
  /-- 1: RX_LEN below MIN_RX_SAMPLES. -/
  | short
  /-- 2: no PREFIX pair at the cursor. -/
  | noPrefix
  /-- 3: a bit pair matches neither ONE nor ZERO. -/
  | badBit
  /-- 4: no SUFFIX pair after the 64 bits. -/
  | noSuffix
  /-- 5: packet bits 63:56 are not HEADER. -/
  | badHeader
  /-- 6: the checksum byte is not the recomputed checksum. -/
  | badCksum
  /-- 7: no packet in the stream validated. -/
  | notFound
  /-- 8: the TX buffer cannot take the whole sequence. -/
  | txFull
  /-- 9: a reserved opcode. -/
  | illegalCmd
deriving DecidableEq, Repr

/-- A Command Record: equality is over device, channel and command only (00_scope.md R14, R15). -/
structure Record where
  device : BitVec 24
  channel : BitVec 16
  command : BitVec 8
deriving DecidableEq, Repr

/-- The result of validating or decoding a packet: a record, or "absent" with its code
(00_scope.md R12, 40_packet_codec.md R104). -/
inductive Parse where
  | ok (r : Record)
  | absent (code : ErrCode)
deriving DecidableEq, Repr

/-- The registers of 10_state.md section 3. -/
inductive Reg where
  | cmd | status | device | channel | command | pktLo | pktHi | cksum
  | rxDevice | rxChannel | rxCommand | rxLen | rxPos | txCount | txHint | carrier
  | tol | txPkts | rxPkts | rxBad | rxSkips | rxNudges
deriving DecidableEq, Repr

/-- What can happen to the block from outside: an access of the host, or the reset input
(20_memory.md R72, 60_exceptions.md R263). An access carries its byte address and its size in bytes. -/
inductive HostOp where
  | read (addr size : Nat)
  | write (addr size : Nat) (v : Word)
  | powerOnReset
deriving DecidableEq, Repr

/-- The bytes of the two buffers that have been written since power-on, by window offset, in canonical form
(`Memory.wf`). An unlisted byte has no value (log 8). -/
abbrev Memory := List Host.Cell

/-- The canonical form: offsets strictly rising. No value stands for an unlisted byte, so no entry can equal
what an unlisted offset reads as. -/
abbrev Memory.wf (m : Memory) : Prop := m.Pairwise (fun a b => a.1 < b.1)

/-- The state of one instance (10_state.md R20): the registers of R23 to R38 at their field widths (R22),
the buffers RXMEM, TXMEM and the marks RXW in `mem` (R40 to R42), and four fields of the model's own. The
hidden working state of R45 to R47 "does not exist outside a command" (70_reset_and_hazards.md R280). -/
structure State where
  /-- The parameters of the instance; no step writes them (log 1). The model's own field. -/
  cfg : Params
  /-- STATUS.VALID (R24). -/
  valid : Bool
  /-- STATUS.MATCH (R24). -/
  matched : Bool
  /-- STATUS.BUSY (R24): reads 0 at every point where the host can read (log 13). -/
  busy : Bool
  /-- STATUS.ERR (R24). -/
  err : ErrCode
  /-- DEVICE (R25). -/
  device : BitVec 24
  /-- CHANNEL (R26). -/
  channel : BitVec 16
  /-- COMMAND (R27). -/
  command : BitVec 8
  /-- PKT_LO (R28). -/
  pktLo : Word
  /-- PKT_HI (R28). -/
  pktHi : Word
  /-- CKSUM (R29). -/
  cksum : BitVec 8
  /-- RX_DEVICE (R30). -/
  rxDevice : BitVec 24
  /-- RX_CHANNEL (R30). -/
  rxChannel : BitVec 16
  /-- RX_COMMAND (R30). -/
  rxCommand : BitVec 8
  /-- RX_LEN (R31). -/
  rxLen : Word
  /-- RX_POS (R32). -/
  rxPos : Word
  /-- TX_COUNT (R33). -/
  txCount : Word
  /-- TX_HINT (R34). -/
  txHint : Word
  /-- CARRIER (R35). -/
  carrier : Word
  /-- TOL.TOL_PCT (R36). -/
  tol : BitVec 7
  /-- TX_PKTS (R37). -/
  txPkts : Word
  /-- RX_PKTS (R38). -/
  rxPkts : Word
  /-- RX_BAD (R38). -/
  rxBad : Word
  /-- RX_SKIPS (R38). -/
  rxSkips : Word
  /-- RX_NUDGES (R38). -/
  rxNudges : Word
  /-- The written bytes of RXMEM and TXMEM, and with them the marks RXW (R40 to R42, log 8). -/
  mem : Memory
  /-- What the host has issued and the block has not yet served, oldest first (log 5). The model's own. -/
  host : List HostOp
  /-- The word the last host read answered (log 7). The model's own. -/
  busData : Option Word
  /-- The number of power-on resets so far (log 9). The model's own. -/
  powerOns : Nat
deriving DecidableEq, Repr

/-- The one fault of the model (60_exceptions.md R250: "The only model fault is the read of an unwritten
sample"). -/
inductive Fault where
  /-- UNWRITTEN_SAMPLE (60_exceptions.md R254): raised by RX_MATCH, RX_EXPECT, RX_PKT and RX_FRAME when they
  read sample `index`, below RX_LEN, that the host never wrote since power-on. Safe: the hardware would go on
  with a value the spec does not give (log 10). -/
  | unwrittenSample (index : Nat)
deriving DecidableEq, Repr

/-- What the model has no step for. -/
inductive Refusal where
  /-- Raised by exec's arm of an instruction without a meaning; no arm of this model raises it. Safe. -/
  | notModelled (mnemonic : String)
  /-- Raised by a step whose access is not 4 bytes at a multiple of 4: "The model has no step for it (it is
  refused)" (20_memory.md R69). Unsafe for claims about a host that makes such accesses (log 12). -/
  | badAccess (addr size : Nat)
  /-- Raised by a step whose access is not a STATUS read while BUSY = 1 (70_reset_and_hazards.md R290). It
  never arises from a state with BUSY = 0. Unsafe for claims about a host that breaks the duty (log 13). -/
  | accessWhileBusy (addr : Nat)
deriving DecidableEq, Repr

/-- The machine right after power-on reset (70_reset_and_hazards.md R280, 10_state.md R39): every register
0, TOL_PCT = 25, no buffer word written. The fields of the model's own: `cfg` is Params.default (log 2), no
access is pending (log 5), nothing has been answered (log 7), `powerOns` is 0 (log 9). -/
def State.reset : State where
  cfg := Params.default
  valid := false
  matched := false
  busy := false
  err := .none
  device := 0#24
  channel := 0#16
  command := 0#8
  pktLo := 0#32
  pktHi := 0#32
  cksum := 0#8
  rxDevice := 0#24
  rxChannel := 0#16
  rxCommand := 0#8
  rxLen := 0#32
  rxPos := 0#32
  txCount := 0#32
  txHint := 0#32
  carrier := 0#32
  tol := 25#7
  txPkts := 0#32
  rxPkts := 0#32
  rxBad := 0#32
  rxSkips := 0#32
  rxNudges := 0#32
  mem := []
  host := []
  busData := Option.none
  powerOns := 0

end Sys2Proof.Machine
end

