-- ==== Sys2Proof/Machine/Protocol.lean ====
section
/-! DEFINITION. The protocol constants of 00_scope.md R6, "protocol-fixed, not configurable per instance",
each named once (93 I1). -/
namespace Sys2Proof.Machine

/-- HEADER (00_scope.md R6). -/
def header : BitVec 8 := 0xA3#8

/-- The mark of each template, in microseconds (00_scope.md R6). -/
def markOf : Template → Nat
  | .pktPrefix => 5000
  | .pktSuffix => 600
  | .one => 600
  | .zero => 290

/-- The space of each template, in microseconds (00_scope.md R6). -/
def spaceOf : Template → Nat
  | .pktPrefix => 600
  | .pktSuffix => 5000
  | .one => 275
  | .zero => 600

/-- PKT_BITS (00_scope.md R6). -/
def pktBits : Nat := 64

/-- PKT_PAIRS = 1 prefix + 64 bits + 1 suffix (00_scope.md R6). -/
def pktPairs : Nat := 66

/-- PKT_SAMPLES = 2 × PKT_PAIRS (00_scope.md R6). -/
def pktSamples : Nat := 132

/-- PREAMBLE_PAIRS (00_scope.md R6). -/
def preamblePairs : Nat := 16

/-- POSTAMBLE_PAIRS (00_scope.md R6). -/
def postamblePairs : Nat := 16

/-- REPEATS (00_scope.md R6). -/
def repeats : Nat := 6

/-- CARRIER_TX: 0 = unmodulated baseband (00_scope.md R6). -/
def carrierTx : Word := 0#32

/-- CHANNEL_1 (00_scope.md R6). -/
def channel1 : BitVec 16 := 0x0100#16

/-- CHANNEL_ALL (00_scope.md R6). -/
def channelAll : BitVec 16 := 0xFFFF#16

end Sys2Proof.Machine
end

