-- ==== Sys2Proof/Machine/Ops.lean ====
section
/-! DEFINITION. The operations over the buffers: the window's layout (20_memory.md R61), one byte, one word,
the RX sample and its written mark (10_state.md R40 to R43), the TX pair (R41), and appending a pair
(41_modulator.md R130). The block takes no exception and returns from none (60_exceptions.md R256), so no
operation here enters or leaves one. -/
namespace Sys2Proof.Machine

/-- The bytes of a word, bits 7:0 first. No access is narrower than a word, so this order "cannot be
observed" (20_memory.md R68; DESIGN CHOICE, log 8). -/
def wordBytes (v : Word) : List Byte :=
  [v.extractLsb' 0 8, v.extractLsb' 8 8, v.extractLsb' 16 8, v.extractLsb' 24 8]

/-- The word of four bytes, bits 7:0 first (log 8). -/
def wordOfBytes (b0 b1 b2 b3 : Byte) : Word := b3 ++ b2 ++ b1 ++ b0

/-- The byte at a window offset of the buffers, if it has been written since power-on. -/
def Memory.readByte (m : Memory) (a : Nat) : Option Byte := m.lookup a

/-- The cells that hold the bytes from offset `a` on. -/
def cellsAt (a : Nat) : List Byte → Memory
  | [] => []
  | b :: bs => (a, b) :: cellsAt (a + 1) bs

/-- Stores the bytes from offset `a` on. -/
def Memory.storeBytes (m : Memory) (a : Nat) (bs : List Byte) : Memory :=
  m.filter (fun c => c.1 < a) ++ cellsAt a bs ++ m.filter (fun c => a + bs.length ≤ c.1)

/-- The word at a window offset of the buffers, if all of it has been written since power-on. -/
def Memory.readWord (m : Memory) (a : Nat) : Option Word :=
  match m.readByte a, m.readByte (a + 1), m.readByte (a + 2), m.readByte (a + 3) with
  | some b0, some b1, some b2, some b3 => some (wordOfBytes b0 b1 b2 b3)
  | _, _, _, _ => none

/-- Stores one word. -/
def Memory.storeWord (m : Memory) (a : Nat) (v : Word) : Memory := m.storeBytes a (wordBytes v)

/-- The window offset of RXMEM[0] (20_memory.md R61). -/
def rxBase : Nat := 0x01000000

/-- The window offset of TXMEM[0].mark (20_memory.md R61). -/
def txBase : Nat := 0x02000000

/-- The window offset of RXMEM[i] (20_memory.md R61). -/
def rxAddr (i : Nat) : Nat := rxBase + 4 * i

/-- The window offset of TXMEM[j].mark (20_memory.md R61). -/
def txMarkAddr (j : Nat) : Nat := txBase + 8 * j

/-- The window offset of TXMEM[j].space (20_memory.md R61). -/
def txSpaceAddr (j : Nat) : Nat := txBase + 8 * j + 4

/-- RXMEM[i], if the host has written it since power-on (10_state.md R40, R42). -/
def State.rxWord (s : State) (i : Nat) : Option Word := s.mem.readWord (rxAddr i)

/-- RXW[i], the written mark of RXMEM[i] (10_state.md R42, log 8). -/
def State.rxw (s : State) (i : Nat) : Bool := (s.rxWord i).isSome

/-- TXMEM[j] as it is stored, whatever TX_COUNT is (41_modulator.md R133: "the old TXMEM contents stay in
the storage array"). -/
def State.txStored (s : State) (j : Nat) : Option (Word × Word) :=
  match s.mem.readWord (txMarkAddr j), s.mem.readWord (txSpaceAddr j) with
  | some m, some sp => some (m, sp)
  | _, _ => none

/-- Entry j of the emitted sequence: entries 0 .. TX_COUNT−1 (10_state.md R41). -/
def State.txPair (s : State) (j : Nat) : Option (Word × Word) :=
  if j < s.txCount.toNat then s.txStored j else none

/-- The word of a buffer at a window offset as the hardware holds it: what was written, else the power-on
contents, which are unspecified (93 I4, I5, log 9). -/
def State.bufferWord (s : State) (a : Nat) : Word :=
  (s.mem.readWord a).getD (Config.powerOnWord s.powerOns a)

/-- The host stores v in RXMEM[i], which sets RXW[i] (20_memory.md R63). -/
def State.storeRx (s : State) (i : Nat) (v : Word) : State :=
  { s with mem := s.mem.storeWord (rxAddr i) v }

/-- TxAppend(m, s) (41_modulator.md R130). Every caller has checked that the pair fits. -/
def State.txAppend (s : State) (mark space : Word) : State :=
  let j := s.txCount.toNat
  { s with
    mem := (s.mem.storeWord (txMarkAddr j) mark).storeWord (txSpaceAddr j) space
    txCount := s.txCount + 1#32 }

end Sys2Proof.Machine
end

