-- ==== Sys2Proof/Machine/Operands.lean ====
section
/-! DEFINITION. What a command operates on: the input record, the packet word, the cursor and the sample
indices it reaches. The operand fields of the command word itself are pulled out in Decode. -/
namespace Sys2Proof.Machine

/-- The input record (10_state.md R25 to R27). -/
def State.inputRecord (s : State) : Record :=
  { device := s.device, channel := s.channel, command := s.command }

/-- The output record (10_state.md R30). -/
def State.outputRecord (s : State) : Record :=
  { device := s.rxDevice, channel := s.rxChannel, command := s.rxCommand }

/-- PKT = {PKT_HI, PKT_LO} (10_state.md R28). -/
def State.pkt (s : State) : PacketWord := s.pktHi ++ s.pktLo

/-- Writes PKT_HI and PKT_LO with the two halves of a packet word (40_packet_codec.md R105). -/
def State.setPkt (s : State) (p : PacketWord) : State :=
  { s with pktHi := p.extractLsb' 32 32, pktLo := p.extractLsb' 0 32 }

/-- RX_POS + OFF, "a mathematical integer" that never wraps (42_demodulator.md R152). -/
def State.peekIndex (s : State) (off : Nat) : Nat := s.rxPos.toNat + off

/-- Writes RX_POS with a sample index. -/
def State.setRxPos (s : State) (p : Nat) : State := { s with rxPos := BitVec.ofNat 32 p }

/-- min(v, 2^32 − 1) (42_demodulator.md R159). -/
def saturate32 (v : Nat) : Nat := min v (2 ^ 32 - 1)

end Sys2Proof.Machine
end

