-- ==== Sys2Proof/Machine/Flags.lean ====
section
/-! DEFINITION. STATUS (10_state.md R24, 60_exceptions.md R251), `finish`, and publishing a record with
VALID. -/
namespace Sys2Proof.Machine

/-- The number of a result code (60_exceptions.md R251). -/
def ErrCode.code : ErrCode → BitVec 4
  | .none => 0#4
  | .short => 1#4
  | .noPrefix => 2#4
  | .badBit => 3#4
  | .noSuffix => 4#4
  | .badHeader => 5#4
  | .badCksum => 6#4
  | .notFound => 7#4
  | .txFull => 8#4
  | .illegalCmd => 9#4

/-- The STATUS word: ERR at 11:8, BUSY at 2, MATCH at 1, VALID at 0, the rest "hardwired 0"
(10_state.md R24). -/
def State.statusWord (s : State) : Word :=
  0#20 ++ s.err.code ++ 0#5 ++ BitVec.ofBool s.busy ++ BitVec.ofBool s.matched ++ BitVec.ofBool s.valid

/-- finish(code) (00_scope.md R11): "writes STATUS.ERR <- code and ends the command". -/
def State.finish (s : State) (code : ErrCode) : State := { s with err := code }

/-- STATUS.MATCH <- m (10_state.md R24). -/
def State.setMatch (s : State) (m : Bool) : State := { s with matched := m }

/-- Writes the output record, "all three registers together" (10_state.md R30). -/
def State.setOutput (s : State) (r : Record) : State :=
  { s with rxDevice := r.device, rxChannel := r.channel, rxCommand := r.command }

/-- The record an absent result leaves: "all zero" (10_state.md R30, 92 D14). -/
def zeroRecord : Record := { device := 0#24, channel := 0#16, command := 0#8 }

/-- The common end of UNPACK and RX_PKT (40_packet_codec.md R110, 42_demodulator.md R162): the record with
VALID = 1, or zeros with VALID = 0 and the code. -/
def State.publish (s : State) (p : Parse) : State :=
  match p with
  | .ok r => { (s.setOutput r).finish .none with valid := true }
  | .absent code => { (s.setOutput zeroRecord).finish code with valid := false }

end Sys2Proof.Machine
end

