-- ==== Sys2Proof/Machine/PacketCodec.lean ====
section
/-! DEFINITION. The checksum unit and the packet assembler/validator (40_packet_codec.md): CKSUM, PACK,
UNPACK. -/
namespace Sys2Proof.Machine

/-- The unreduced sum of the six record bytes, by fixed bit slices (40_packet_codec.md R100, R101;
20_memory.md R67). -/
def checksumSum (dev : BitVec 24) (ch : BitVec 16) (cmd : BitVec 8) : Nat :=
  (dev.extractLsb' 0 8).toNat + (dev.extractLsb' 8 8).toNat + (dev.extractLsb' 16 8).toNat
    + (ch.extractLsb' 0 8).toNat + (ch.extractLsb' 8 8).toNat
    + cmd.toNat

/-- Checksum(dev, ch, cmd) (40_packet_codec.md R100). -/
def checksum (dev : BitVec 24) (ch : BitVec 16) (cmd : BitVec 8) : BitVec 8 :=
  BitVec.ofNat 8 (checksumSum dev ch cmd)

/-- Pack(dev, ch, cmd) (40_packet_codec.md R103, 30_encoding.md R81). -/
def packWord (dev : BitVec 24) (ch : BitVec 16) (cmd : BitVec 8) : PacketWord :=
  header ++ dev ++ ch ++ cmd ++ checksum dev ch cmd

/-- The packet of a record. -/
def Record.pack (r : Record) : PacketWord := packWord r.device r.channel r.command

/-- P[63:56] (30_encoding.md R81). -/
def pktHeader (p : PacketWord) : BitVec 8 := p.extractLsb' 56 8

/-- {P[55:32], P[31:16], P[15:8]} (30_encoding.md R81). -/
def pktRecord (p : PacketWord) : Record :=
  { device := p.extractLsb' 32 24, channel := p.extractLsb' 16 16, command := p.extractLsb' 8 8 }

/-- P[7:0] (30_encoding.md R81). -/
def pktChecksum (p : PacketWord) : BitVec 8 := p.extractLsb' 0 8

/-- Validate(P): the header first, then the checksum (40_packet_codec.md R104, 92 D16). -/
def validate (p : PacketWord) : Parse :=
  if pktHeader p ≠ header then .absent .badHeader
  else if pktChecksum p ≠ checksum (pktRecord p).device (pktRecord p).channel (pktRecord p).command then
    .absent .badCksum
  else .ok (pktRecord p)

/-- CKSUM (40_packet_codec.md R102). -/
def execCksum (s : State) : Host.Outcome State Fault Refusal :=
  .next ({ s with cksum := checksum s.device s.channel s.command }.finish .none)

/-- PACK (40_packet_codec.md R105). -/
def execPack (s : State) : Host.Outcome State Fault Refusal :=
  .next ({ s.setPkt s.inputRecord.pack with cksum := checksum s.device s.channel s.command }.finish .none)

/-- UNPACK (40_packet_codec.md R110). -/
def execUnpack (s : State) : Host.Outcome State Fault Refusal :=
  .next (s.publish (validate s.pkt))

end Sys2Proof.Machine
end

