-- ==== Sys2Proof/Machine/Modulator.lean ====
section
/-! DEFINITION. The OOK modulator (41_modulator.md): TX_CLEAR, EMIT_PKT. -/
namespace Sys2Proof.Machine

/-- EmitPair(T): "The emitted durations are the template constants exactly" (41_modulator.md R131). -/
def State.emitPair (s : State) (t : Template) : State :=
  s.txAppend (BitVec.ofNat 32 (markOf t)) (BitVec.ofNat 32 (spaceOf t))

/-- Emits a sequence of templates, in order. -/
def State.emitAll (s : State) : List Template → State
  | [] => s
  | t :: ts => (s.emitPair t).emitAll ts

/-- The template of bit i of a word (41_modulator.md R132). -/
def bitTemplate (p : PacketWord) (i : Nat) : Template := if p.getLsbD i then .one else .zero

/-- The templates of bits n−1 down to 0. -/
def bitTemplates (p : PacketWord) : Nat → List Template
  | 0 => []
  | n + 1 => bitTemplate p n :: bitTemplates p n

/-- PulseSeq(P) (41_modulator.md R132): the prefix, bits 63 down to 0, the suffix. -/
def pulseSeq (p : PacketWord) : List Template :=
  .pktPrefix :: bitTemplates p pktBits ++ [.pktSuffix]

/-- EmitPacket(P) (41_modulator.md R132). -/
def State.emitPacket (s : State) (p : PacketWord) : State := s.emitAll (pulseSeq p)

/-- The on-air time of a sequence, in microseconds; data for the reader, no time of the model
(41_modulator.md R134, R135). -/
def onAir : List Template → Nat
  | [] => 0
  | t :: ts => markOf t + spaceOf t + onAir ts

/-- TX_CLEAR (41_modulator.md R133): the stored pairs stay, the sequence is empty. -/
def execTxClear (s : State) : Host.Outcome State Fault Refusal :=
  .next ({ s with txCount := 0#32 }.finish .none)

/-- EMIT_PKT (41_modulator.md R136): all 66 pairs, or TX_FULL and nothing. -/
def execEmitPkt (s : State) : Host.Outcome State Fault Refusal :=
  .next (if s.txCount.toNat + pktPairs > s.cfg.txCap then s.finish .txFull
    else (s.emitPacket s.pkt).finish .none)

end Sys2Proof.Machine
end

