-- ==== Sys2Proof/Machine/Demodulator.lean ====
section
/-! DEFINITION. The OOK demodulator (42_demodulator.md): the tolerance matcher, RX_MATCH, RX_EXPECT,
RX_ADVANCE, the packet parser, RX_PKT. A read of a sample may fault, so what reads samples answers
`Except Fault`. -/
namespace Sys2Proof.Machine

/-- lo(d) = floor((100 − t)·d / 100) (42_demodulator.md R151), in integers (00_scope.md R10). -/
def loBound (t : BitVec 7) (d : Nat) : Int := ((100 - (t.toNat : Int)) * (d : Int)) / 100

/-- hi(d) = floor((100 + t)·d / 100) (42_demodulator.md R151), in integers (00_scope.md R10). -/
def hiBound (t : BitVec 7) (d : Nat) : Int := ((100 + (t.toNat : Int)) * (d : Int)) / 100

/-- lo(d) ≤ v ≤ hi(d), for a duration v that is not negative. -/
def inWindow (t : BitVec 7) (d : Nat) (v : Int) : Bool :=
  decide (0 ≤ v ∧ loBound t d ≤ v ∧ v ≤ hiBound t d)

/-- RX[i] = sext(RXMEM[i]), or the fault of an unwritten sample (10_state.md R40, R43). -/
def State.readSample (s : State) (i : Nat) : Except Fault Int :=
  match s.rxWord i with
  | some v => .ok v.toInt
  | none => .error (.unwrittenSample i)

/-- MarkMatch(i, d) (42_demodulator.md R152): a sample at or beyond RX_LEN "is never read". -/
def State.markMatch (s : State) (i d : Nat) : Except Fault Bool :=
  if i < s.rxLen.toNat then
    match s.readSample i with
    | .ok v => .ok (inWindow s.tol d v)
    | .error f => .error f
  else .ok false

/-- SpaceMatch(i, d) (42_demodulator.md R152): the magnitude of a sample that is not positive. -/
def State.spaceMatch (s : State) (i d : Nat) : Except Fault Bool :=
  if i < s.rxLen.toNat then
    match s.readSample i with
    | .ok v => .ok (inWindow s.tol d (-v))
    | .error f => .error f
  else .ok false

/-- Match(T, p) (42_demodulator.md R153): the space is read only if the mark matched. -/
def State.pairMatch (s : State) (t : Template) (p : Nat) : Except Fault Bool :=
  match s.markMatch p (markOf t) with
  | .ok true => s.spaceMatch (p + 1) (spaceOf t)
  | .ok false => .ok false
  | .error f => .error f

/-- Step 2 of DecodePacket (42_demodulator.md R160): `n` more bits from index p into ACC, the ONE template
first (92 D9). Answers the word, or none on a bad bit, and the index where it stopped. -/
def State.decodeBits (s : State) : Nat → Nat → PacketWord → Except Fault (Option PacketWord × Nat)
  | 0, p, acc => .ok (some acc, p)
  | n + 1, p, acc =>
    match s.pairMatch .one p with
    | .error f => .error f
    | .ok true => s.decodeBits n (p + 2) ((acc <<< 1) ||| 1#64)
    | .ok false =>
      match s.pairMatch .zero p with
      | .error f => .error f
      | .ok true => s.decodeBits n (p + 2) (acc <<< 1)
      | .ok false => .ok (none, p)

/-- Steps 3 and 4 of DecodePacket (42_demodulator.md R160): the suffix at p, then Validate. -/
def State.decodeEnd (s : State) (p : Nat) (acc : PacketWord) : Except Fault (Parse × Nat) :=
  match s.pairMatch .pktSuffix p with
  | .error f => .error f
  | .ok true => .ok (validate acc, p + 2)
  | .ok false => .ok (.absent .noSuffix, p)

/-- DecodePacket(p) (42_demodulator.md R160, R161): the result and the index just after the last pair that
matched. -/
def State.decodePacket (s : State) (p : Nat) : Except Fault (Parse × Nat) :=
  match s.pairMatch .pktPrefix p with
  | .error f => .error f
  | .ok false => .ok (.absent .noPrefix, p)
  | .ok true =>
    match s.decodeBits pktBits (p + 2) 0#64 with
    | .error f => .error f
    | .ok (none, q) => .ok (.absent .badBit, q)
    | .ok (some acc, q) => s.decodeEnd q acc

/-- Render (42_demodulator.md R165): the samples +m, −s of each pair. -/
def render : List Template → List Int
  | [] => []
  | t :: ts => (markOf t : Int) :: -(spaceOf t : Int) :: render ts

/-- The outcome of a command that read samples: its fault, or the state its value gives. -/
def afterRead {α : Type} (r : Except Fault α) (k : α → State) : Host.Outcome State Fault Refusal :=
  match r with
  | .ok a => .next (k a)
  | .error f => .fault f

/-- RX_MATCH T, OFF (42_demodulator.md R155). -/
def execRxMatch (t : Template) (off : Nat) (s : State) : Host.Outcome State Fault Refusal :=
  afterRead (s.pairMatch t (s.peekIndex off)) (fun m => (s.setMatch m).finish .none)

/-- RX_EXPECT T (42_demodulator.md R157). -/
def execRxExpect (t : Template) (s : State) : Host.Outcome State Fault Refusal :=
  afterRead (s.pairMatch t s.rxPos.toNat) (fun m =>
    (if m then (s.setMatch m).setRxPos (s.rxPos.toNat + 2) else s.setMatch m).finish .none)

/-- RX_ADVANCE N (42_demodulator.md R159): saturates at 2^32 − 1. -/
def execRxAdvance (n : Nat) (s : State) : Host.Outcome State Fault Refusal :=
  .next ((s.setRxPos (saturate32 (s.rxPos.toNat + n))).finish .none)

/-- RX_PKT (42_demodulator.md R162). -/
def execRxPkt (s : State) : Host.Outcome State Fault Refusal :=
  afterRead (s.decodePacket s.rxPos.toNat) (fun r => (s.setRxPos r.2).publish r.1)

end Sys2Proof.Machine
end

