-- ==== Sys2Proof/Machine/FrameSync.lean ====
section
/-! DEFINITION. The framer and the deframer/synchroniser (43_frame_sync.md): TX_FRAME, RX_FRAME. -/
namespace Sys2Proof.Machine

/-- Whether a command code has a RELEASE block (43_frame_sync.md R191). -/
def Params.hasRelease (c : Params) (k : BitVec 8) : Bool := k == c.cmdUp || k == c.cmdDown

/-- B of 43_frame_sync.md R192: the number of repeat blocks. -/
def Params.blocks (c : Params) (k : BitVec 8) : Nat := if c.hasRelease k then 2 else 1

/-- n of 43_frame_sync.md R192: the length of a frame of B blocks, in pairs. -/
def framePairs (blocks : Nat) : Nat := preamblePairs + repeats * pktPairs * blocks + postamblePairs

/-- EmitBlock(P) (43_frame_sync.md R193), with the packets still to emit in place of REP. -/
def State.emitBlock (p : PacketWord) : Nat → State → State
  | 0, s => s
  | n + 1, s => State.emitBlock p n (s.emitPacket p)

/-- `n` consecutive copies of PulseSeq(P). -/
def blockSeq (p : PacketWord) : Nat → List Template
  | 0 => []
  | n + 1 => pulseSeq p ++ blockSeq p n

/-- Frame(d, c, k), the sequence of a full transmission (43_frame_sync.md R191). -/
def frameSeq (c : Params) (r : Record) : List Template :=
  List.replicate preamblePairs .zero
    ++ blockSeq r.pack repeats
    ++ (if c.hasRelease r.command then blockSeq { r with command := c.cmdRelease }.pack repeats
        else [])
    ++ List.replicate postamblePairs .zero

/-- TX_FRAME's writes before the first pair (43_frame_sync.md R194). -/
def State.beginFrame (s : State) (n : Nat) : State :=
  { s with carrier := carrierTx, txCount := 0#32, txHint := BitVec.ofNat 32 n }

/-- TX_FRAME's emission (43_frame_sync.md R194): preamble, primary block, RELEASE block, postamble. -/
def State.emitFrame (s : State) (r : Record) : State :=
  let s1 := s.emitAll (List.replicate preamblePairs .zero)
  let s2 := s1.emitBlock r.pack repeats
  let s3 := if s.cfg.hasRelease r.command
    then s2.emitBlock { r with command := s.cfg.cmdRelease }.pack repeats else s2
  s3.emitAll (List.replicate postamblePairs .zero)

/-- TX_FRAME (43_frame_sync.md R194). -/
def execTxFrame (s : State) : Host.Outcome State Fault Refusal :=
  let b := s.cfg.blocks s.command
  let n := framePairs b
  .next (if n > s.cfg.txCap then s.finish .txFull
    else ({ (s.beginFrame n).emitFrame s.inputRecord with
      txPkts := BitVec.ofNat 32 (repeats * b) }).finish .none)

/-- The working state of one RX_FRAME (43_frame_sync.md R200, R201; 10_state.md R47): the cursor p, the
latch FIRST and the four counters. -/
structure Scan where
  pos : Nat
  first : Option Record
  pkts : Nat
  bad : Nat
  skips : Nat
  nudges : Nat
deriving DecidableEq, Repr

/-- "p <- 0; FIRST <- none", counters 0 (43_frame_sync.md R201). -/
def Scan.start : Scan := { pos := 0, first := none, pkts := 0, bad := 0, skips := 0, nudges := 0 }

/-- A Packet step's effect on the scan (43_frame_sync.md R199, R200). -/
def Scan.packet (c : Scan) (r : Parse × Nat) : Scan :=
  match r with
  | (.ok rec, q) => { c with pos := q, pkts := c.pkts + 1, first := c.first.or (some rec) }
  | (.absent _, q) => { c with pos := q, bad := c.bad + 1 }

/-- A Nudge step (43_frame_sync.md R199). -/
def Scan.nudge (c : Scan) : Scan := { c with pos := c.pos + 1, nudges := c.nudges + 1 }

/-- A Skip step (43_frame_sync.md R199). -/
def Scan.skip (c : Scan) : Scan := { c with pos := c.pos + 2, skips := c.skips + 1 }

/-- One scan step: Packet, else Nudge, else Skip, "tested in this order" (43_frame_sync.md R199). -/
def State.scanStep (s : State) (c : Scan) : Except Fault Scan :=
  match s.pairMatch .pktPrefix c.pos with
  | .error f => .error f
  | .ok true =>
    match s.decodePacket c.pos with
    | .error f => .error f
    | .ok r => .ok (c.packet r)
  | .ok false =>
    match s.pairMatch .pktPrefix (c.pos + 1) with
    | .error f => .error f
    | .ok true => .ok c.nudge
    | .ok false => .ok c.skip

/-- The scan's loop (43_frame_sync.md R201), for at most `fuel` iterations. "RX_FRAME performs at most RX_LEN
iterations" (R202), so RX_LEN is fuel enough (DEDUCED, log 19). -/
def State.scanLoop (s : State) : Nat → Scan → Except Fault Scan
  | 0, c => .ok c
  | fuel + 1, c =>
    if c.pos + pktSamples ≤ s.rxLen.toNat then
      match s.scanStep c with
      | .error f => .error f
      | .ok c' => s.scanLoop fuel c'
    else .ok c

/-- Writes RX_PKTS, RX_BAD, RX_SKIPS and RX_NUDGES (10_state.md R38). -/
def State.setCounters (s : State) (c : Scan) : State :=
  { s with
    rxPkts := BitVec.ofNat 32 c.pkts
    rxBad := BitVec.ofNat 32 c.bad
    rxSkips := BitVec.ofNat 32 c.skips
    rxNudges := BitVec.ofNat 32 c.nudges }

/-- What RX_FRAME answers for a latch: the first record, else absent with NOT_FOUND (43_frame_sync.md R201,
90_conflicts.md C2). -/
def firstResult : Option Record → Parse
  | some r => .ok r
  | none => .absent .notFound

/-- The end of RX_FRAME (43_frame_sync.md R201). -/
def State.endFrame (s : State) (c : Scan) : State :=
  ((s.setCounters c).setRxPos c.pos).publish (firstResult c.first)

/-- RX_FRAME (43_frame_sync.md R201): SHORT "reads no sample" (R198); otherwise the whole scan. -/
def execRxFrame (s : State) : Host.Outcome State Fault Refusal :=
  if s.rxLen.toNat < s.cfg.minRxSamples then
    .next (((s.setCounters Scan.start).setRxPos 0).publish (.absent .short))
  else
    afterRead (s.scanLoop s.rxLen.toNat Scan.start) s.endFrame

end Sys2Proof.Machine
end

