-- ==== Sys2Proof/Machine/Control.lean ====
section
/-! DEFINITION. The control commands (44_control.md): NOP, SOFT_RESET, and the outcome of a reserved
opcode. -/
namespace Sys2Proof.Machine

/-- Every register of 10_state.md section 3 at its reset value (R39); the buffers and the model's own fields
stay. -/
def State.resetRegisters (s : State) : State :=
  { State.reset with
    cfg := s.cfg
    mem := s.mem
    host := s.host
    busData := s.busData
    powerOns := s.powerOns }

/-- NOP (44_control.md R230). -/
def execNop (s : State) : Host.Outcome State Fault Refusal := .next (s.finish .none)

/-- SOFT_RESET (44_control.md R232): "RXMEM contents and the RXW marks are NOT changed". -/
def execSoftReset (s : State) : Host.Outcome State Fault Refusal := .next s.resetRegisters

/-- A reserved opcode: finish(ILLEGAL_CMD) (44_control.md R234, 30_encoding.md R85). -/
def reservedOutcome (s : State) : Host.Outcome State Fault Refusal := .next (s.finish .illegalCmd)

end Sys2Proof.Machine
end

