-- ==== Sys2Proof/Machine/Dispatch.lean ====
section
/-! DEFINITION. One arm per command. -/
namespace Sys2Proof.Machine

def exec (i : Instr) (s : State) : Host.Outcome State Fault Refusal :=
  match i with
  | .nop => Sys2Proof.Machine.execNop s
  | .cksum => Sys2Proof.Machine.execCksum s
  | .pack => Sys2Proof.Machine.execPack s
  | .unpack => Sys2Proof.Machine.execUnpack s
  | .txClear => Sys2Proof.Machine.execTxClear s
  | .emitPkt => Sys2Proof.Machine.execEmitPkt s
  | .txFrame => Sys2Proof.Machine.execTxFrame s
  | .rxMatch t off => Sys2Proof.Machine.execRxMatch t off s
  | .rxExpect t => Sys2Proof.Machine.execRxExpect t s
  | .rxAdvance n => Sys2Proof.Machine.execRxAdvance n s
  | .rxPkt => Sys2Proof.Machine.execRxPkt s
  | .rxFrame => Sys2Proof.Machine.execRxFrame s
  | .softReset => Sys2Proof.Machine.execSoftReset s

end Sys2Proof.Machine
end

