-- ==== Sys2Proof/Machine/Bus.lean ====
section
/-! DEFINITION. The host's side of the window (20_memory.md R60 to R70): the register file's offsets, what a
read answers, what a write does, power-on reset (70_reset_and_hazards.md R280). -/
namespace Sys2Proof.Machine

/-- The byte offset of a register (10_state.md section 3). -/
def Reg.offset : Reg → Nat
  | .cmd => 0x00
  | .status => 0x04
  | .device => 0x08
  | .channel => 0x0C
  | .command => 0x10
  | .pktLo => 0x14
  | .pktHi => 0x18
  | .cksum => 0x1C
  | .rxDevice => 0x20
  | .rxChannel => 0x24
  | .rxCommand => 0x28
  | .rxLen => 0x2C
  | .rxPos => 0x30
  | .txCount => 0x34
  | .txHint => 0x38
  | .carrier => 0x3C
  | .tol => 0x40
  | .txPkts => 0x44
  | .rxPkts => 0x48
  | .rxBad => 0x4C
  | .rxSkips => 0x50
  | .rxNudges => 0x54

/-- The register at an offset (10_state.md section 3). -/
def Reg.ofOffset : Nat → Option Reg
  | 0x00 => some .cmd
  | 0x04 => some .status
  | 0x08 => some .device
  | 0x0C => some .channel
  | 0x10 => some .command
  | 0x14 => some .pktLo
  | 0x18 => some .pktHi
  | 0x1C => some .cksum
  | 0x20 => some .rxDevice
  | 0x24 => some .rxChannel
  | 0x28 => some .rxCommand
  | 0x2C => some .rxLen
  | 0x30 => some .rxPos
  | 0x34 => some .txCount
  | 0x38 => some .txHint
  | 0x3C => some .carrier
  | 0x40 => some .tol
  | 0x44 => some .txPkts
  | 0x48 => some .rxPkts
  | 0x4C => some .rxBad
  | 0x50 => some .rxSkips
  | 0x54 => some .rxNudges
  | _ => none

/-- "The block decodes address bits 25:0 only" (20_memory.md R62). -/
def windowOffset (addr : Nat) : Nat := addr % 2 ^ 26

/-- What the host reads from a register (10_state.md R22: bits above a field "read as 0"; R23: CMD reads
0). -/
def State.readReg (s : State) : Reg → Word
  | .cmd => 0#32
  | .status => s.statusWord
  | .device => s.device.setWidth 32
  | .channel => s.channel.setWidth 32
  | .command => s.command.setWidth 32
  | .pktLo => s.pktLo
  | .pktHi => s.pktHi
  | .cksum => s.cksum.setWidth 32
  | .rxDevice => s.rxDevice.setWidth 32
  | .rxChannel => s.rxChannel.setWidth 32
  | .rxCommand => s.rxCommand.setWidth 32
  | .rxLen => s.rxLen
  | .rxPos => s.rxPos
  | .txCount => s.txCount
  | .txHint => s.txHint
  | .carrier => s.carrier
  | .tol => s.tol.setWidth 32
  | .txPkts => s.txPkts
  | .rxPkts => s.rxPkts
  | .rxBad => s.rxBad
  | .rxSkips => s.rxSkips
  | .rxNudges => s.rxNudges

/-- What a host write of w leaves in a register other than CMD: a field keeps its low bits (10_state.md R25
to R28), RX_LEN and TOL clamp (R31, R36), a read-only register ignores the write (R22, 20_memory.md R65). -/
def State.writeReg (s : State) (r : Reg) (w : Word) : State :=
  match r with
  | .cmd => s
  | .status => s
  | .device => { s with device := w.setWidth 24 }
  | .channel => { s with channel := w.setWidth 16 }
  | .command => { s with command := w.setWidth 8 }
  | .pktLo => { s with pktLo := w }
  | .pktHi => { s with pktHi := w }
  | .cksum => s
  | .rxDevice => s
  | .rxChannel => s
  | .rxCommand => s
  | .rxLen => { s with rxLen := BitVec.ofNat 32 (min w.toNat s.cfg.rxCap) }
  | .rxPos => { s with rxPos := w }
  | .txCount => s
  | .txHint => s
  | .carrier => { s with carrier := w }
  | .tol => { s with tol := BitVec.ofNat 7 (min w.toNat 100) }
  | .txPkts => s
  | .rxPkts => s
  | .rxBad => s
  | .rxSkips => s
  | .rxNudges => s

/-- A CMD write (30_encoding.md R80): decodes the word and runs its command, or the reserved outcome. -/
def State.runCommand (s : State) (w : Word) : Host.Outcome State Fault Refusal :=
  match decode w with
  | .ok i => exec i s
  | .error _ => reservedOutcome s

/-- The index of the RXMEM word at an offset, if the offset lies in the RXMEM window (20_memory.md R61). -/
def Params.rxIndex (c : Params) (off : Nat) : Option Nat :=
  if rxBase ≤ off ∧ off < rxAddr c.rxCap then some ((off - rxBase) / 4) else none

/-- The index of the TXMEM pair at an offset, if the offset lies in the TXMEM window (20_memory.md R61). -/
def Params.txIndex (c : Params) (off : Nat) : Option Nat :=
  if txBase ≤ off ∧ off < txMarkAddr c.txCap then some ((off - txBase) / 8) else none

/-- What a host read of a window offset answers (20_memory.md R61, R63 to R65). -/
def State.readWindow (s : State) (off : Nat) : Word :=
  match Reg.ofOffset off with
  | some r => s.readReg r
  | none =>
    match s.cfg.rxIndex off with
    | some _ => s.bufferWord off
    | none =>
      match s.cfg.txIndex off with
      | some j => if j < s.txCount.toNat then s.bufferWord off else 0#32
      | none => 0#32

/-- What a host write to a window offset does (20_memory.md R61, R63 to R65, R70). -/
def State.writeWindow (s : State) (off : Nat) (w : Word) : Host.Outcome State Fault Refusal :=
  match Reg.ofOffset off with
  | some .cmd => s.runCommand w
  | some r => .next (s.writeReg r w)
  | none =>
    match s.cfg.rxIndex off with
    | some i => .next (s.storeRx i w)
    | none => .next s

/-- Power-on reset (70_reset_and_hazards.md R280): every register at its reset value, no buffer word written,
the buffers' contents unspecified anew (log 9, log 15). -/
def State.powerOn (s : State) : State :=
  { s.resetRegisters with mem := [], busData := none, powerOns := s.powerOns + 1 }

/-- Why the block has no step for an access, if it has none: BUSY (70_reset_and_hazards.md R290), or the size
or alignment of the access (20_memory.md R69). -/
def State.accessRefusal (s : State) (isRead : Bool) (addr size : Nat) : Option Refusal :=
  if s.busy ∧ ¬ (isRead ∧ windowOffset addr = Reg.status.offset) then some (.accessWhileBusy addr)
  else if size ≠ 4 ∨ addr % 4 ≠ 0 then some (.badAccess addr size)
  else none

/-- Serves one input (20_memory.md R70, R72). -/
def State.serve (s : State) (op : HostOp) : Host.Outcome State Fault Refusal :=
  match op with
  | .powerOnReset => .next s.powerOn
  | .read addr size =>
    match s.accessRefusal true addr size with
    | some r => .refused r
    | none => .next { s with busData := some (s.readWindow (windowOffset addr)) }
  | .write addr size w =>
    match s.accessRefusal false addr size with
    | some r => .refused r
    | none => s.writeWindow (windowOffset addr) w

end Sys2Proof.Machine
end

