-- ==== Sys2Proof/Machine/HostProgram.lean ====
section
/-! DEFINITION. The notation of host programs and the pseudo-commands (30_encoding.md R89 to R91), as lists
of host accesses. -/
namespace Sys2Proof.Machine

/-- `WR <REG>, <value>` (30_encoding.md R89). -/
def Params.wr (c : Params) (r : Reg) (v : Word) : HostOp := .write (c.base + r.offset) 4 v

/-- `RD <REG>` (30_encoding.md R89). -/
def Params.rd (c : Params) (r : Reg) : HostOp := .read (c.base + r.offset) 4

/-- `WRX <i>, <value>`, a negative value as its two's-complement word (30_encoding.md R89). -/
def Params.wrx (c : Params) (i : Nat) (v : Int) : HostOp :=
  .write (c.base + rxAddr i) 4 (BitVec.ofInt 32 v)

/-- `RDTX <j>`: the mark, then the space of TXMEM[j] (30_encoding.md R89). -/
def Params.rdtx (c : Params) (j : Nat) : List HostOp :=
  [.read (c.base + txMarkAddr j) 4, .read (c.base + txSpaceAddr j) 4]

/-- `CMD <mnemonic> [operands]` (30_encoding.md R89, R90). -/
def Params.cmd (c : Params) (i : Instr) : HostOp := c.wr .cmd (encode i)

/-- `SETREC d, c, k` (30_encoding.md R91). -/
def Params.setrec (c : Params) (d ch k : Word) : List HostOp :=
  [c.wr .device d, c.wr .channel ch, c.wr .command k]

/-- `SEND d, c, k` (30_encoding.md R91). -/
def Params.send (c : Params) (d ch k : Word) : List HostOp :=
  c.setrec d ch k ++ [c.cmd .txFrame]

/-- `ENCODE1 d, c, k` (30_encoding.md R91). -/
def Params.encode1 (c : Params) (d ch k : Word) : List HostOp :=
  c.setrec d ch k ++ [c.cmd .pack, c.cmd .txClear, c.cmd .emitPkt]

/-- `WRX i, s0; WRX i+1, s1; …`. -/
def Params.wrxFrom (c : Params) : Nat → List Int → List HostOp
  | _, [] => []
  | i, v :: vs => c.wrx i v :: c.wrxFrom (i + 1) vs

/-- `LOADRX s0, …` (30_encoding.md R91). -/
def Params.loadrx (c : Params) (samples : List Int) : List HostOp :=
  c.wrxFrom 0 samples
    ++ [c.wr .rxLen (BitVec.ofNat 32 samples.length), c.wr .rxPos 0#32]

/-- `RX_PEEK T` (30_encoding.md R91). -/
def Params.rxPeek (c : Params) (t : Template) : HostOp := c.cmd (.rxMatch t 0)

/-- `RX_SKIPPAIR` (30_encoding.md R91). -/
def Params.rxSkipPair (c : Params) : HostOp := c.cmd (.rxAdvance 2)

/-- The accesses LOOPBACK makes for pair j on, when the reads answer the given pairs (30_encoding.md R91). -/
def Params.loopbackFrom (c : Params) : Nat → List (Word × Word) → List HostOp
  | _, [] => []
  | j, (m, sp) :: ps =>
    c.rdtx j ++ [c.wrx (2 * j) (m.toNat : Int), c.wrx (2 * j + 1) (-(sp.toNat : Int))]
      ++ c.loopbackFrom (j + 1) ps

/-- `LOOPBACK` (30_encoding.md R91) as the host makes it when TX_COUNT and the reads answer these pairs: host
control flow, so the answers are its argument (log 20). -/
def Params.loopback (c : Params) (pairs : List (Word × Word)) : List HostOp :=
  [c.rd .txCount] ++ c.loopbackFrom 0 pairs
    ++ [c.wr .rxLen (BitVec.ofNat 32 (2 * pairs.length)), c.wr .rxPos 0#32]

end Sys2Proof.Machine
end

