-- ==== Sys2Proof/Machine/Step.lean ====
section
/-! DEFINITION. One step: the block serves the oldest input the host has issued (20_memory.md R72). -/
namespace Sys2Proof.Machine

/-- With no input pending the block does nothing: "Its state changes only through host accesses and resets"
(60_exceptions.md R263, log 6). -/
def step (s : State) : Host.Outcome State Fault Refusal :=
  match s.host with
  | [] => .next s
  | op :: rest => { s with host := rest }.serve op

/-- `s` with the host's next access a CMD write of the word whose low bits are `w` (log 5). The address is
CMD's window offset: "The block decodes address bits 25:0 only" (20_memory.md R62). BUSY is 0, as the block
accepts no CMD write otherwise (70_reset_and_hazards.md R290). -/
def State.withFetchWord (s : State) (nbits w : Nat) : State :=
  { s with host := .write Reg.cmd.offset 4 (tableWord nbits w) :: s.host, busy := false }

end Sys2Proof.Machine
end

