-- ==== Sys2Proof/Safety.lean ====
section
/-! DEFINITION. The terms claims are stated in: which samples are written, which states are consistent, which
steps are safe. -/
namespace Sys2Proof.Machine

/-- Every sample of the stream has been written (70_reset_and_hazards.md R283, 43_frame_sync.md R203). -/
def State.streamWritten (s : State) : Prop := ∀ i, i < s.rxLen.toNat → s.rxw i = true

/-- RXMEM holds these samples from index p on. -/
def State.holdsSamples (s : State) (p : Nat) (vs : List Int) : Prop :=
  ∀ i v, vs[i]? = some v → s.rxWord (p + i) = some (BitVec.ofInt 32 v)

/-- The pair of words a template is emitted as (41_modulator.md R131, 30_encoding.md R87). -/
def templatePair (t : Template) : Word × Word :=
  (BitVec.ofNat 32 (markOf t), BitVec.ofNat 32 (spaceOf t))

/-- The TX sequence is these templates from entry j on. -/
def State.sendsFrom (s : State) (j : Nat) (ts : List Template) : Prop :=
  ∀ i t, ts[i]? = some t → s.txPair (j + i) = some (templatePair t)

/-- A window offset lies in RXMEM or in TXMEM (20_memory.md R61). -/
def Params.inBuffers (c : Params) (a : Nat) : Prop :=
  (rxBase ≤ a ∧ a < rxAddr c.rxCap) ∨ (txBase ≤ a ∧ a < txMarkAddr c.txCap)

/-- What holds of every state the block can be in. -/
structure State.Inv (s : State) : Prop where
  /-- The parameters meet 00_scope.md R7. -/
  cfg_valid : s.cfg.Valid
  /-- The memory is in canonical form. -/
  mem_wf : Memory.wf s.mem
  /-- Only RXMEM and TXMEM hold bytes (20_memory.md R61). -/
  mem_inBuffers : ∀ c ∈ s.mem, s.cfg.inBuffers c.1
  /-- RX_LEN ≤ RX_CAP (10_state.md R31). -/
  rxLen_le : s.rxLen.toNat ≤ s.cfg.rxCap
  /-- TX_COUNT ≤ TX_CAP (10_state.md R33). -/
  txCount_le : s.txCount.toNat ≤ s.cfg.txCap
  /-- TOL_PCT ≤ 100 (10_state.md R36). -/
  tol_le : s.tol.toNat ≤ 100
  /-- STATUS.BUSY = 0 (10_state.md R24). -/
  not_busy : s.busy = false
  /-- "Every pair the block emits is one of the four templates" (30_encoding.md R87). -/
  emitted : ∀ j, j < s.txCount.toNat → ∃ t, s.txPair j = some (templatePair t)
  /-- With VALID = 0 the output record is zero (00_scope.md R12, 10_state.md R30). -/
  absent_zero : s.valid = false → s.outputRecord = zeroRecord
  /-- TX_HINT is 0 before the first TX_FRAME, then 428 or 824 (43_frame_sync.md R192). -/
  txHint_range : s.txHint.toNat = 0 ∨ s.txHint.toNat = 428 ∨ s.txHint.toNat = 824
  /-- TX_PKTS is 0 before the first TX_FRAME, then 6 or 12 (10_state.md R37). -/
  txPkts_range : s.txPkts.toNat = 0 ∨ s.txPkts.toNat = 6 ∨ s.txPkts.toNat = 12
  /-- The RX_FRAME counters "cannot wrap" (10_state.md R38). -/
  counters_le :
    s.rxPkts.toNat + s.rxBad.toNat + s.rxSkips.toNat + s.rxNudges.toNat ≤ s.cfg.rxCap

/-- The while loop of RX_FRAME (43_frame_sync.md R201) as a relation, with no bound on its iterations: it
stops when fewer than PKT_SAMPLES samples are left, and otherwise takes one scan step and goes on. -/
inductive State.ScanRuns (s : State) : Scan → Scan → Prop where
  | done (c : Scan) : s.rxLen.toNat < c.pos + pktSamples → ScanRuns s c c
  | step (c c' d : Scan) : c.pos + pktSamples ≤ s.rxLen.toNat → s.scanStep c = .ok c' →
      ScanRuns s c' d → ScanRuns s c d

/-- The same loop where a scan step of it faults: the fault RX_FRAME ends in (10_state.md R43). -/
inductive State.ScanFaults (s : State) : Scan → Fault → Prop where
  | here (c : Scan) (f : Fault) : c.pos + pktSamples ≤ s.rxLen.toNat → s.scanStep c = .error f →
      ScanFaults s c f
  | step (c c' : Scan) (f : Fault) : c.pos + pktSamples ≤ s.rxLen.toNat → s.scanStep c = .ok c' →
      ScanFaults s c' f → ScanFaults s c f

/-- The pair at sample index p lies in the windows of template T, and both samples lie in the stream:
42_demodulator.md R151 to R153 in one sentence, the bounds written out. -/
def State.pairInWindow (s : State) (t : Template) (p : Nat) : Prop :=
  p + 1 < s.rxLen.toNat ∧ ∃ m sp : Word, s.rxWord p = some m ∧ s.rxWord (p + 1) = some sp ∧
    0 ≤ m.toInt ∧ (100 - (s.tol.toNat : Int)) * markOf t / 100 ≤ m.toInt ∧
    m.toInt ≤ (100 + (s.tol.toNat : Int)) * markOf t / 100 ∧
    sp.toInt ≤ 0 ∧ (100 - (s.tol.toNat : Int)) * spaceOf t / 100 ≤ -sp.toInt ∧
    -sp.toInt ≤ (100 + (s.tol.toNat : Int)) * spaceOf t / 100

/-- A mark lies in the mark window of template T (42_demodulator.md R151, R152), the bounds written out. -/
abbrev State.markInWindow (s : State) (t : Template) (m : Word) : Prop :=
  0 ≤ m.toInt ∧ (100 - (s.tol.toNat : Int)) * markOf t / 100 ≤ m.toInt ∧
    m.toInt ≤ (100 + (s.tol.toNat : Int)) * markOf t / 100

/-- Match(T, p) reads sample i, and the host never wrote it: i is the mark, or it is the space, which
42_demodulator.md R153 reads only after a mark that matched. That read is a fault (10_state.md R43). -/
def State.pairFaultsAt (s : State) (t : Template) (p i : Nat) : Prop :=
  i < s.rxLen.toNat ∧ s.rxw i = false ∧
    (i = p ∨ (i = p + 1 ∧ ∃ m : Word, s.rxWord p = some m ∧ s.markInWindow t m))

/-- Match(T, p) reads no unwritten sample and the pair is outside the windows, or outside the stream. -/
def State.pairMisses (s : State) (t : Template) (p : Nat) : Prop :=
  ¬ s.pairInWindow t p ∧ ∀ i, ¬ s.pairFaultsAt t p i

/-- The samples at p and p + 1 have been written, so far as they lie in the stream. -/
def State.pairWritten (s : State) (p : Nat) : Prop :=
  (p < s.rxLen.toNat → s.rxw p = true) ∧ (p + 1 < s.rxLen.toNat → s.rxw (p + 1) = true)

/-- The checksum of 40_packet_codec.md R100 in decimal arithmetic: the three device bytes, the two channel
bytes and the command byte, mod 2^8. -/
def checksumArith (dev : BitVec 24) (ch : BitVec 16) (cmd : BitVec 8) : BitVec 8 :=
  BitVec.ofNat 8 (dev.toNat % 256 + dev.toNat / 256 % 256 + dev.toNat / 65536 % 256
    + ch.toNat % 256 + ch.toNat / 256 % 256 + cmd.toNat)

/-- An access the host's duty allows (20_memory.md R69). -/
def HostOp.dutiful : HostOp → Prop
  | .read addr size => size = 4 ∧ addr % 4 = 0
  | .write addr size _ => size = 4 ∧ addr % 4 = 0
  | .powerOnReset => True

/-- A step that answers a next state. -/
def State.stepsSafely (s : State) : Prop := ∃ t, step s = .next t

end Sys2Proof.Machine
end

