-- ==== Sys2Proof/Certificates/Slice0/Obligations.lean ====
section
/-! DEFINITION. What is claimed of the model, for the provers. Each docstring names the rule of spec/ it
formalises or rests on. -/

open Sys2Proof Sys2Proof.Machine

/-! ### Reset and the step -/

/-- 10_state.md R39: after reset every register reads 0, except TOL, which reads 25; no sample is written. -/
def Obligations.ResetReadsZeroExceptTol : Prop :=
  (∀ r : Reg, State.reset.readReg r = if r = .tol then 25#32 else 0#32) ∧
  ∀ i, State.reset.rxw i = false

/-- 70_reset_and_hazards.md R280: power-on reset sets every register to its reset value, clears every RXW
mark and empties the TX sequence, whose window then reads 0; the RXMEM contents are unspecified, so every
sample is unwritten. The parameters and the pending accesses stay (log 15). -/
def Obligations.PowerOnResetSetsResetValues : Prop :=
  ∀ (s : State) (rest : List HostOp), s.host = .powerOnReset :: rest →
    ∃ t, step s = .next t ∧
      (∀ r : Reg, t.readReg r = if r = .tol then 25#32 else 0#32) ∧
      (∀ i, t.rxWord i = none ∧ t.rxw i = false) ∧
      (∀ off, txBase ≤ off → off < 2 ^ 26 → rxAddr s.cfg.rxCap ≤ txBase → t.readWindow off = 0#32) ∧
      t.cfg = s.cfg ∧ t.host = rest

/-- 60_exceptions.md R263 and 20_memory.md R72, with the model's choice of log 6: with nothing pending, a step
changes nothing. -/
def Obligations.IdleStepChangesNothing : Prop :=
  ∀ s : State, s.host = [] → step s = .next s

/-- 30_encoding.md R80: when the oldest pending access is a write to CMD of a word that decodes to command i,
the step is exec of i, on the state with that access served. -/
def Obligations.StepRunsDecodedCommand : Prop :=
  ∀ (s : State) (rest : List HostOp) (addr : Nat) (w : Word) (i : Instr),
    s.host = .write addr 4 w :: rest → addr % 2 ^ 26 = 0 → s.busy = false → decode w = .ok i →
    step s = exec i { s with host := rest }

/-- 44_control.md R234 and 30_encoding.md R85: a command word with a reserved opcode sets ERR to ILLEGAL_CMD
and changes nothing else. -/
def Obligations.ReservedOpcodeSetsIllegalCmd : Prop :=
  ∀ (s : State) (rest : List HostOp) (addr : Nat) (w : Word),
    s.host = .write addr 4 w :: rest → addr % 2 ^ 26 = 0 → s.busy = false →
    (w.toNat % 256 = 0x0C ∨ w.toNat % 256 = 0x0D ∨ w.toNat % 256 = 0x0E ∨ 0x10 ≤ w.toNat % 256) →
    step s = .next { s with host := rest, err := .illegalCmd }

/-! ### The host's window -/

/-- 10_state.md R22, R25 to R28, R31, R32, R35, R36: what a host write leaves in each register other than
CMD; every other register, and the buffers, stay. A field narrower than the word keeps the word's low bits;
RX_LEN and TOL clamp; a read-only register ignores the write. HostReadAnswersRegister writes the offsets out. -/
def Obligations.HostWriteSetsRegister : Prop :=
  ∀ (s : State) (rest : List HostOp) (addr : Nat) (r : Reg) (v : Word),
    s.host = .write addr 4 v :: rest → addr % 2 ^ 26 = r.offset → s.busy = false → r ≠ .cmd →
    ∃ t, step s = .next t ∧
      (∀ q : Reg, q ≠ r → t.readReg q = s.readReg q) ∧
      t.readReg r = (match r with
        | .device => v &&& 0x00FFFFFF#32
        | .channel => v &&& 0x0000FFFF#32
        | .command => v &&& 0x000000FF#32
        | .pktLo => v
        | .pktHi => v
        | .rxLen => BitVec.ofNat 32 (min v.toNat s.cfg.rxCap)
        | .rxPos => v
        | .carrier => v
        | .tol => BitVec.ofNat 32 (min v.toNat 100)
        | _ => s.readReg r) ∧
      t.mem = s.mem ∧ t.cfg = s.cfg ∧ t.host = rest ∧ t.busData = s.busData ∧ t.powerOns = s.powerOns

/-- 20_memory.md R65: an unmapped offset reads 0 and ignores writes, a read-only register or STATUS ignores
writes, CMD reads 0. -/
def Obligations.UnmappedAndReadOnlyIgnoreWrites : Prop :=
  ∀ (s : State) (rest : List HostOp) (addr : Nat) (v : Word), s.cfg.Valid → s.busy = false → addr % 4 = 0 →
    let off := addr % 2 ^ 26
    let unmapped := (0x58 ≤ off ∧ off < 0x01000000)
      ∨ (0x01000000 + 4 * s.cfg.rxCap ≤ off ∧ off < 0x02000000)
      ∨ 0x02000000 + 8 * s.cfg.txCap ≤ off
    let readOnly := off = 0x04 ∨ (0x1C ≤ off ∧ off ≤ 0x28) ∨ off = 0x34 ∨ off = 0x38
      ∨ (0x44 ≤ off ∧ off ≤ 0x54)
    (unmapped → s.host = .read addr 4 :: rest → step s = .next { s with host := rest, busData := some 0#32 }) ∧
    (unmapped → s.host = .write addr 4 v :: rest → step s = .next { s with host := rest }) ∧
    (readOnly → s.host = .write addr 4 v :: rest → step s = .next { s with host := rest }) ∧
    (off = 0 → s.host = .read addr 4 :: rest → step s = .next { s with host := rest, busData := some 0#32 })

/-- 20_memory.md R70 ("Reads have no side effects") and 10_state.md R22 to R24: every register stands at the
offset of the table of 10_state.md section 3, and every result code has its number of 60_exceptions.md R251; a
host read of a register answers its fields zero-extended, STATUS laid out as 10_state.md R24 says, and changes
nothing but what the host has been answered. -/
def Obligations.HostReadAnswersRegister : Prop :=
  (∀ r : Reg, r.offset = match r with
    | .cmd => 0x00
    | .status => 0x04
    | .device => 0x08
    | .channel => 0x0C
    | .command => 0x10
    | .pktLo => 0x14
    | .pktHi => 0x18
    | .cksum => 0x1C
    | .rxDevice => 0x20
    | .rxChannel => 0x24
    | .rxCommand => 0x28
    | .rxLen => 0x2C
    | .rxPos => 0x30
    | .txCount => 0x34
    | .txHint => 0x38
    | .carrier => 0x3C
    | .tol => 0x40
    | .txPkts => 0x44
    | .rxPkts => 0x48
    | .rxBad => 0x4C
    | .rxSkips => 0x50
    | .rxNudges => 0x54) ∧
  (∀ e : ErrCode, e.code.toNat = match e with
    | .none => 0
    | .short => 1
    | .noPrefix => 2
    | .badBit => 3
    | .noSuffix => 4
    | .badHeader => 5
    | .badCksum => 6
    | .notFound => 7
    | .txFull => 8
    | .illegalCmd => 9) ∧
  ∀ (s : State) (rest : List HostOp) (addr : Nat) (r : Reg),
    s.host = .read addr 4 :: rest → addr % 2 ^ 26 = r.offset → s.busy = false →
    step s = .next { s with host := rest, busData := some (s.readReg r) } ∧
      (s.readReg r).toNat = (match r with
        | .cmd => 0
        | .status => s.valid.toNat + 2 * s.matched.toNat + 256 * s.err.code.toNat
        | .device => s.device.toNat
        | .channel => s.channel.toNat
        | .command => s.command.toNat
        | .pktLo => s.pktLo.toNat
        | .pktHi => s.pktHi.toNat
        | .cksum => s.cksum.toNat
        | .rxDevice => s.rxDevice.toNat
        | .rxChannel => s.rxChannel.toNat
        | .rxCommand => s.rxCommand.toNat
        | .rxLen => s.rxLen.toNat
        | .rxPos => s.rxPos.toNat
        | .txCount => s.txCount.toNat
        | .txHint => s.txHint.toNat
        | .carrier => s.carrier.toNat
        | .tol => s.tol.toNat
        | .txPkts => s.txPkts.toNat
        | .rxPkts => s.rxPkts.toNat
        | .rxBad => s.rxBad.toNat
        | .rxSkips => s.rxSkips.toNat
        | .rxNudges => s.rxNudges.toNat)

/-- 20_memory.md R63: a host write of RXMEM[i] stores the word and sets RXW[i]; every other sample, every TX
pair and every register stay; a host read of a written sample answers it; a host read of a sample never
written is served too, with some word the statement leaves free, and changes nothing else. -/
def Obligations.HostWritesAndReadsSamples : Prop :=
  ∀ (s : State) (rest : List HostOp) (addr i : Nat) (v : Word), s.cfg.Valid → s.busy = false →
    i < s.cfg.rxCap → addr % 2 ^ 26 = 0x01000000 + 4 * i →
    (s.host = .write addr 4 v :: rest →
      ∃ t, step s = .next t ∧ t.rxWord i = some v ∧ t.rxw i = true ∧
        (∀ j, j ≠ i → t.rxWord j = s.rxWord j ∧ t.rxw j = s.rxw j) ∧
        (∀ j, t.txStored j = s.txStored j) ∧
        (∀ a, (a < rxAddr i ∨ rxAddr i + 4 ≤ a) → t.mem.readByte a = s.mem.readByte a) ∧
        t = { s with host := rest, mem := t.mem }) ∧
    (s.host = .read addr 4 :: rest → s.rxWord i = some v →
      step s = .next { s with host := rest, busData := some v }) ∧
    (s.host = .read addr 4 :: rest → s.rxw i = false →
      ∃ w : Word, step s = .next { s with host := rest, busData := some w })

/-- 20_memory.md R64: a host read of TXMEM[j] answers its mark or its space if j < TX_COUNT and 0 otherwise;
host writes to the TXMEM window are ignored. -/
def Obligations.HostReadsTxPairs : Prop :=
  ∀ (s : State) (rest : List HostOp) (addr j : Nat) (m sp v : Word), s.cfg.Valid → s.busy = false →
    j < s.cfg.txCap →
    (addr % 2 ^ 26 = 0x02000000 + 8 * j → s.host = .read addr 4 :: rest → s.txPair j = some (m, sp) →
      step s = .next { s with host := rest, busData := some m }) ∧
    (addr % 2 ^ 26 = 0x02000000 + 8 * j + 4 → s.host = .read addr 4 :: rest → s.txPair j = some (m, sp) →
      step s = .next { s with host := rest, busData := some sp }) ∧
    (addr % 2 ^ 26 = 0x02000000 + 8 * j ∨ addr % 2 ^ 26 = 0x02000000 + 8 * j + 4 →
      s.txCount.toNat ≤ j → s.host = .read addr 4 :: rest →
      step s = .next { s with host := rest, busData := some 0#32 }) ∧
    (addr % 2 ^ 26 = 0x02000000 + 8 * j ∨ addr % 2 ^ 26 = 0x02000000 + 8 * j + 4 →
      s.host = .write addr 4 v :: rest → step s = .next { s with host := rest })

/-- 20_memory.md R69: an access whose size is not 4 or whose address is not a multiple of 4 has no step. -/
def Obligations.BadAccessIsRefused : Prop :=
  ∀ (s : State) (rest : List HostOp) (addr size : Nat) (v : Word), s.busy = false →
    (size ≠ 4 ∨ addr % 4 ≠ 0) →
    (s.host = .read addr size :: rest → step s = .refused (.badAccess addr size)) ∧
    (s.host = .write addr size v :: rest → step s = .refused (.badAccess addr size))

/-- 70_reset_and_hazards.md R290: while BUSY = 1 an access other than a read of STATUS has no step. Two points
are the model's choice and no rule of the spec: an access that is also of a bad size or alignment is refused
for BUSY first (log 12), and a read of STATUS is served, with BUSY at bit 2 (log 13). No command sets BUSY
(log 13). HostReadAnswersRegister writes the codes of ERR out. -/
def Obligations.BusyServesOnlyStatusReads : Prop :=
  ∀ (s : State) (rest : List HostOp) (addr size : Nat) (v : Word), s.busy = true →
    (s.host = .write addr size v :: rest → step s = .refused (.accessWhileBusy addr)) ∧
    (addr % 2 ^ 26 ≠ 0x04 → s.host = .read addr size :: rest → step s = .refused (.accessWhileBusy addr)) ∧
    (addr % 2 ^ 26 = 0x04 → s.host = .read addr 4 :: rest →
      ∃ w : Word, step s = .next { s with host := rest, busData := some w } ∧
        w.toNat = s.valid.toNat + 2 * s.matched.toNat + 4 + 256 * s.err.code.toNat)

/-- 20_memory.md R62: the block decodes address bits 25:0 only, so an access at an address a multiple of 2^26
higher does the same; and nothing depends on BASE: from two states that differ in BASE alone, a step ends the
same way, in states that differ in BASE alone. -/
def Obligations.AccessDependsOnLowAddressBits : Prop :=
  (∀ (s : State) (rest : List HostOp) (off base : Nat) (v : Word), s.busy = false → off % 4 = 0 →
    step { s with host := .write (base * 2 ^ 26 + off) 4 v :: rest }
      = step { s with host := .write off 4 v :: rest } ∧
    step { s with host := .read (base * 2 ^ 26 + off) 4 :: rest }
      = step { s with host := .read off 4 :: rest }) ∧
  ∀ (s : State) (k : Nat),
    match step s, step { s with cfg := { s.cfg with window := k } } with
    | .next t, .next t' => t' = { t with cfg := { t.cfg with window := k } }
    | .fault f, .fault f' => f = f'
    | .refused r, .refused r' => r = r'
    | _, _ => False

/-- 20_memory.md R70: "Writing the same value twice to any register other than CMD leaves the same state as
writing it once"; the same of a sample. -/
def Obligations.RepeatedWriteIsIdempotent : Prop :=
  ∀ (s t : State) (off : Nat) (v : Word), off ≠ 0 → s.writeWindow off v = .next t →
    t.writeWindow off v = .next t

/-! ### The command word -/

/-- 30_encoding.md R82, R83, R84, R90: decoding the word the notation writes for a command gives the command
back, at every value its fields admit. -/
def Obligations.DecodeEncodeRoundTrip : Prop :=
  ∀ i : Instr, i.WellFormed → decode (encode i) = .ok i

/-- 30_encoding.md R82: "Every bit that a format does not name is ignored: it may hold any value and has no
effect". RX_EXPECT ignores OFF too (42_demodulator.md R157). -/
def Obligations.DecodeIgnoresUnnamedBits : Prop :=
  ∀ w w' : Word, (∀ k, k < 8 → w.getLsbD k = w'.getLsbD k) →
    (w.toNat % 256 ≠ 7 → w.toNat % 256 ≠ 8 → w.toNat % 256 ≠ 9 → decode w = decode w') ∧
    (w.toNat % 256 = 7 → (∀ k, k = 8 ∨ k = 9 ∨ (16 ≤ k ∧ k < 24) → w.getLsbD k = w'.getLsbD k) →
      decode w = decode w') ∧
    (w.toNat % 256 = 8 → (∀ k, k = 8 ∨ k = 9 → w.getLsbD k = w'.getLsbD k) → decode w = decode w') ∧
    (w.toNat % 256 = 9 → (∀ k, 16 ≤ k → k < 32 → w.getLsbD k = w'.getLsbD k) → decode w = decode w')

/-- 30_encoding.md R84 to R86: every word selects one row, with that row's opcode and operands inside their
fields, or it is the reserved outcome of exactly the reserved opcodes. -/
def Obligations.EveryWordIsOneRowOrReserved : Prop :=
  ∀ w : Word,
    (∃ i : Instr, decode w = .ok i ∧ i.opcode.toNat = w.toNat % 256 ∧ i.WellFormed ∧
      (w.toNat % 256 ≤ 0x0B ∨ w.toNat % 256 = 0x0F)) ∨
    (decode w = .error (.reservedOpcode (BitVec.ofNat 8 w.toNat)) ∧
      (w.toNat % 256 = 0x0C ∨ w.toNat % 256 = 0x0D ∨ w.toNat % 256 = 0x0E ∨ 0x10 ≤ w.toNat % 256))

/-- 30_encoding.md R84, R90 and 95_test_vectors.md V13, V14: words written out from the spec decode to the
commands they stand for. -/
def Obligations.SpecWordsDecode : Prop :=
  decode 0x00000000#32 = .ok .nop ∧ decode 0xFFFFFF00#32 = .ok .nop ∧
  decode 0x00000001#32 = .ok .cksum ∧ decode 0x00000002#32 = .ok .pack ∧
  decode 0x00000003#32 = .ok .unpack ∧ decode 0x00000004#32 = .ok .txClear ∧
  decode 0x00000005#32 = .ok .emitPkt ∧ decode 0x00000006#32 = .ok .txFrame ∧
  decode 0x00010007#32 = .ok (.rxMatch .pktPrefix 1) ∧ decode 0x00000107#32 = .ok (.rxMatch .pktSuffix 0) ∧
  decode 0x00000208#32 = .ok (.rxExpect .one) ∧ decode 0x00000308#32 = .ok (.rxExpect .zero) ∧
  decode 0x00050008#32 = .ok (.rxExpect .pktPrefix) ∧
  decode 0x00020009#32 = .ok (.rxAdvance 2) ∧ decode 0xFFFF0009#32 = .ok (.rxAdvance 65535) ∧
  decode 0x0000000A#32 = .ok .rxPkt ∧ decode 0x0000000B#32 = .ok .rxFrame ∧
  decode 0x0000010F#32 = .ok .softReset ∧
  decode 0x1234560C#32 = .error (.reservedOpcode 0x0C#8)

/-! ### Control commands -/

/-- 44_control.md R230: opcode 0x00, bits 31:8 ignored; NOP sets ERR to NONE and changes nothing else. -/
def Obligations.NopOnlyReportsSuccess : Prop :=
  (∀ w : Word, w.toNat % 256 = 0x00 → decode w = .ok .nop) ∧
  ∀ s : State, exec .nop s = .next { s with err := .none }

/-- 44_control.md R232: opcode 0x0F; SOFT_RESET sets every register to its reset value; RXMEM, the RXW marks
and every stored byte stay. -/
def Obligations.SoftResetKeepsSamples : Prop :=
  (∀ w : Word, w.toNat % 256 = 0x0F → decode w = .ok .softReset) ∧
  ∀ s : State, ∃ t, exec .softReset s = .next t ∧
    (∀ r : Reg, t.readReg r = if r = .tol then 25#32 else 0#32) ∧
    (∀ i, t.rxWord i = s.rxWord i ∧ t.rxw i = s.rxw i) ∧
    (∀ a, t.mem.readByte a = s.mem.readByte a) ∧
    t = { State.reset with
      cfg := s.cfg, mem := s.mem, host := s.host, busData := s.busData, powerOns := s.powerOns }

/-! ### Packet codec -/

/-- 40_packet_codec.md R102, R100: opcode 0x01; CKSUM writes the sum of the six record bytes mod 2^8, ERR,
nothing else. -/
def Obligations.CksumWritesByteSum : Prop :=
  (∀ w : Word, w.toNat % 256 = 0x01 → decode w = .ok .cksum) ∧
  ∀ s : State, exec .cksum s =
    .next { s with cksum := checksumArith s.device s.channel s.command, err := .none }

/-- 40_packet_codec.md R101: the unreduced sum never exceeds 1530, and reaches it. -/
def Obligations.ChecksumSumAtMost1530 : Prop :=
  (∀ (d : BitVec 24) (c : BitVec 16) (k : BitVec 8), checksumSum d c k ≤ 1530) ∧
  checksumSum 0xFFFFFF#24 0xFFFF#16 0xFF#8 = 1530

/-- 40_packet_codec.md R105, R103: opcode 0x02; PACK writes PKT_HI = {0xA3, device}, PKT_LO = {channel, command,
checksum}, CKSUM and ERR, nothing else. -/
def Obligations.PackWritesWirePacket : Prop :=
  (∀ w : Word, w.toNat % 256 = 0x02 → decode w = .ok .pack) ∧
  ∀ s : State,
    let c := checksumArith s.device s.channel s.command
    exec .pack s = .next { s with
      pktHi := 0xA3#8 ++ s.device
      pktLo := s.channel ++ s.command ++ c
      cksum := c
      err := .none }

/-- 40_packet_codec.md R110, R104: opcode 0x03; UNPACK tests the header, then the checksum; only a word that
passes both reaches the output record, and otherwise the record is zero and VALID is 0. -/
def Obligations.UnpackValidatesHeaderThenChecksum : Prop :=
  (∀ w : Word, w.toNat % 256 = 0x03 → decode w = .ok .unpack) ∧
  ∀ s : State,
    let hdr := s.pktHi.toNat / 2 ^ 24
    let d := BitVec.ofNat 24 s.pktHi.toNat
    let c := BitVec.ofNat 16 (s.pktLo.toNat / 2 ^ 16)
    let k := BitVec.ofNat 8 (s.pktLo.toNat / 2 ^ 8)
    let sum := BitVec.ofNat 8 s.pktLo.toNat
    (hdr ≠ 0xA3 → exec .unpack s = .next { s with
      rxDevice := 0#24, rxChannel := 0#16, rxCommand := 0#8, valid := false, err := .badHeader }) ∧
    (hdr = 0xA3 → sum ≠ checksumArith d c k → exec .unpack s = .next { s with
      rxDevice := 0#24, rxChannel := 0#16, rxCommand := 0#8, valid := false, err := .badCksum }) ∧
    (hdr = 0xA3 → sum = checksumArith d c k → exec .unpack s = .next { s with
      rxDevice := d, rxChannel := c, rxCommand := k, valid := true, err := .none })

/-- The spec's sentence 40_packet_codec.md R111, from R103 and R104: PACK then UNPACK gives the input record
back with VALID = 1. -/
def Obligations.PackThenUnpackRoundTrip : Prop :=
  (∀ (d : BitVec 24) (c : BitVec 16) (k : BitVec 8),
    validate (packWord d c k) = .ok { device := d, channel := c, command := k }) ∧
  ∀ s : State, ∃ t u, exec .pack s = .next t ∧ exec .unpack t = .next u ∧
    u.rxDevice = s.device ∧ u.rxChannel = s.channel ∧ u.rxCommand = s.command ∧ u.valid = true

/-- The spec's sentence 40_packet_codec.md R112, from R100 and R104: every single-bit flip of a valid word is
absent, with BAD_HEADER for a header bit and BAD_CKSUM for any other. -/
def Obligations.SingleBitFlipIsAbsent : Prop :=
  ∀ (p : PacketWord) (r : Record) (i : Nat), i < 64 → validate p = .ok r →
    validate (p ^^^ BitVec.twoPow 64 i) = .absent (if 56 ≤ i then .badHeader else .badCksum)

/-- The spec's sentence 40_packet_codec.md R113, from R103 and R104: a valid word is the packing of its
record, so two valid words with the same record are the same word. -/
def Obligations.ValidWordIsPackOfItsRecord : Prop :=
  (∀ (p : PacketWord) (r : Record), validate p = .ok r → p = packWord r.device r.channel r.command) ∧
  ∀ (p q : PacketWord) (r : Record), validate p = .ok r → validate q = .ok r → p = q

/-! ### Modulator -/

/-- 41_modulator.md R133: opcode 0x04; TX_CLEAR empties the sequence, which then reads 0; the stored pairs,
CARRIER, TX_HINT, TX_PKTS and every other register stay. -/
def Obligations.TxClearEmptiesSequence : Prop :=
  (∀ w : Word, w.toNat % 256 = 0x04 → decode w = .ok .txClear) ∧
  ∀ s : State, ∃ t, exec .txClear s = .next t ∧
    t = { s with txCount := 0#32, err := .none } ∧
    (∀ j, t.txStored j = s.txStored j) ∧
    (rxAddr s.cfg.rxCap ≤ txBase → ∀ off, txBase ≤ off → t.readWindow off = 0#32)

/-- 41_modulator.md R136, R132: opcode 0x05; EMIT_PKT appends the 66 pairs of PKT, prefix, bits 63 to 0,
suffix, when they fit, and otherwise sets TX_FULL and changes nothing else. The stored bytes are entries
TX_COUNT to TX_COUNT + 65; every other byte, and every other register, stays. -/
def Obligations.EmitPktAppendsWholePacketOrNothing : Prop :=
  (∀ w : Word, w.toNat % 256 = 0x05 → decode w = .ok .emitPkt) ∧
  ∀ s : State, s.cfg.txCap ≤ 2 ^ 20 →
    let c := s.txCount.toNat
    (c + 66 > s.cfg.txCap → exec .emitPkt s = .next { s with err := .txFull }) ∧
    (c + 66 ≤ s.cfg.txCap → ∃ t, exec .emitPkt s = .next t ∧
      t.txCount.toNat = c + 66 ∧
      t.txPair c = some (5000#32, 600#32) ∧
      t.txPair (c + 65) = some (600#32, 5000#32) ∧
      (∀ k, 1 ≤ k → k ≤ 64 → t.txPair (c + k) =
        if (s.pktHi ++ s.pktLo).getLsbD (64 - k) then some (600#32, 275#32) else some (290#32, 600#32)) ∧
      (∀ j, j < c → t.txPair j = s.txPair j) ∧
      (∀ a, (a < txMarkAddr c ∨ txMarkAddr (c + 66) ≤ a) → t.mem.readByte a = s.mem.readByte a) ∧
      t = { s with mem := t.mem, txCount := t.txCount, err := .none })

/-- The spec's sentence 41_modulator.md R138, from R132 and 00_scope.md R6: encoding is injective on words. -/
def Obligations.PulseSeqIsInjective : Prop :=
  ∀ p q : PacketWord,
    (pulseSeq p).map (fun t => (markOf t, spaceOf t)) = (pulseSeq q).map (fun t => (markOf t, spaceOf t)) →
    p = q

/-- The spec's sentence 41_modulator.md R135, from R132 and 00_scope.md R6: the on-air time of a packet. -/
def Obligations.PacketOnAirTime : Prop :=
  ∀ p : PacketWord,
    let n1 := (List.range 64).countP (fun i => p.getLsbD i)
    onAir (pulseSeq p) = 5600 + 5600 + 875 * n1 + 890 * (64 - n1) ∧
    67200 ≤ onAir (pulseSeq p) ∧ onAir (pulseSeq p) ≤ 68160

/-! ### Framer -/

/-- 43_frame_sync.md R194, with R191 and R192: opcode 0x06; TX_FRAME clears CARRIER, starts a fresh sequence,
writes the hint, emits Frame(d, c, k) and counts its packets; when the frame cannot fit it sets TX_FULL and
changes nothing else. The stored bytes are entries 0 to n − 1. -/
def Obligations.TxFrameSendsWholeFrame : Prop :=
  (∀ w : Word, w.toNat % 256 = 0x06 → decode w = .ok .txFrame) ∧
  ∀ s : State, s.cfg.txCap ≤ 2 ^ 20 →
    let rel := s.command = s.cfg.cmdUp ∨ s.command = s.cfg.cmdDown
    let n := if rel then 824 else 428
    let packet := packWord s.device s.channel s.command
    let release := packWord s.device s.channel s.cfg.cmdRelease
    (n > s.cfg.txCap → exec .txFrame s = .next { s with err := .txFull }) ∧
    (n ≤ s.cfg.txCap → ∃ t, exec .txFrame s = .next t ∧
      t.sendsFrom 0 (List.replicate 16 .zero
        ++ (List.replicate 6 (pulseSeq packet)).flatten
        ++ (if rel then (List.replicate 6 (pulseSeq release)).flatten else [])
        ++ List.replicate 16 .zero) ∧
      (∀ a, (a < txMarkAddr 0 ∨ txMarkAddr n ≤ a) → t.mem.readByte a = s.mem.readByte a) ∧
      t = { s with
        mem := t.mem
        carrier := 0#32
        txCount := BitVec.ofNat 32 n
        txHint := BitVec.ofNat 32 n
        txPkts := if rel then 12#32 else 6#32
        err := .none })

/-- The spec's sentence 43_frame_sync.md R195, from R191: where the packets and the postamble of a frame
stand. -/
def Obligations.FramePositions : Prop :=
  ∀ (c : Params) (r : Record) (j : Nat),
    let b := if r.command = c.cmdUp ∨ r.command = c.cmdDown then 2 else 1
    let word := packWord r.device r.channel (if j < 6 then r.command else c.cmdRelease)
    (frameSeq c r).length = 32 + 396 * b ∧
    (j < 16 → (frameSeq c r)[j]? = some .zero ∧ (frameSeq c r)[16 + 396 * b + j]? = some .zero) ∧
    (j < 6 * b → (frameSeq c r)[16 + 66 * j]? = some .pktPrefix ∧
      (frameSeq c r)[16 + 66 * j + 65]? = some .pktSuffix ∧
      ∀ k, 1 ≤ k → k ≤ 64 → (frameSeq c r)[16 + 66 * j + k]? =
        some (if word.getLsbD (64 - k) then .one else .zero))

/-! ### Demodulator -/

/-- 42_demodulator.md R155, with R151 to R153: opcode 0x07, TSEL at 9:8, OFF at 23:16; RX_MATCH sets MATCH to
whether the pair at RX_POS + OFF lies in the template's windows, and ERR; nothing else changes, the cursor
least of all. An unwritten mark faults, an unwritten space only after a mark that matched. -/
def Obligations.RxMatchSetsMatch : Prop :=
  (∀ w : Word, w.toNat % 256 = 0x07 → decode w = .ok (.rxMatch
    (match w.toNat / 256 % 4 with | 0 => .pktPrefix | 1 => .pktSuffix | 2 => .one | _ => .zero)
    (w.toNat / 65536 % 256))) ∧
  ∀ (s : State) (t : Template) (off : Nat),
    let p := s.rxPos.toNat + off
    (s.pairWritten p →
      ∃ m : Bool, exec (.rxMatch t off) s = .next { s with matched := m, err := .none } ∧
        (m = true ↔ s.pairInWindow t p)) ∧
    (p < s.rxLen.toNat → s.rxw p = false → exec (.rxMatch t off) s = .fault (.unwrittenSample p)) ∧
    (∀ m : Word, p + 1 < s.rxLen.toNat → s.rxWord p = some m → s.rxw (p + 1) = false →
      (s.markInWindow t m → exec (.rxMatch t off) s = .fault (.unwrittenSample (p + 1))) ∧
      (¬ s.markInWindow t m → exec (.rxMatch t off) s = .next { s with matched := false, err := .none }))

/-- 42_demodulator.md R157, with R151 to R153: opcode 0x08, TSEL at 9:8, OFF ignored; RX_EXPECT sets MATCH as
RX_MATCH does at offset 0, and moves the cursor by the pair exactly when it matched. An unwritten mark faults,
an unwritten space only after a mark that matched. -/
def Obligations.RxExpectConsumesOnMatch : Prop :=
  (∀ w : Word, w.toNat % 256 = 0x08 → decode w = .ok (.rxExpect
    (match w.toNat / 256 % 4 with | 0 => .pktPrefix | 1 => .pktSuffix | 2 => .one | _ => .zero))) ∧
  ∀ (s : State) (t : Template),
    let p := s.rxPos.toNat
    (s.pairWritten p →
      (s.pairInWindow t p → ∃ q : Word, q.toNat = p + 2 ∧
        exec (.rxExpect t) s = .next { s with matched := true, rxPos := q, err := .none }) ∧
      (¬ s.pairInWindow t p → exec (.rxExpect t) s = .next { s with matched := false, err := .none })) ∧
    (p < s.rxLen.toNat → s.rxw p = false → exec (.rxExpect t) s = .fault (.unwrittenSample p)) ∧
    (∀ m : Word, p + 1 < s.rxLen.toNat → s.rxWord p = some m → s.rxw (p + 1) = false →
      (s.markInWindow t m → exec (.rxExpect t) s = .fault (.unwrittenSample (p + 1))) ∧
      (¬ s.markInWindow t m → exec (.rxExpect t) s = .next { s with matched := false, err := .none }))

/-- 42_demodulator.md R159: opcode 0x09, N at 31:16; RX_ADVANCE adds its count to the cursor, saturating at
2^32 − 1. -/
def Obligations.RxAdvanceSaturates : Prop :=
  (∀ w : Word, w.toNat % 256 = 0x09 → decode w = .ok (.rxAdvance (w.toNat / 65536))) ∧
  ∀ (s : State) (n : Nat), ∃ q : Word, q.toNat = min (s.rxPos.toNat + n) (2 ^ 32 - 1) ∧
    exec (.rxAdvance n) s = .next { s with rxPos := q, err := .none }

/-- 60_exceptions.md R254 and 10_state.md R43, for the first pair each receive command reads: if Match reads an
unwritten sample there, the mark, or the space after a mark that matched, the command faults with that sample's
index; and the fault is final. The reads of RX_PKT and RX_FRAME after their first pair are in
DecodePacketFollowsItsSteps, RxPktPublishesDecodedPacket, ScanStepPacketThenNudgeThenSkip and
RxFrameIsTheWhileLoop. -/
def Obligations.UnwrittenSampleFaults : Prop :=
  (∀ (s : State) (t : Template) (off i : Nat), s.pairFaultsAt t (s.rxPos.toNat + off) i →
    exec (.rxMatch t off) s = .fault (.unwrittenSample i)) ∧
  (∀ (s : State) (t : Template) (i : Nat), s.pairFaultsAt t s.rxPos.toNat i →
    exec (.rxExpect t) s = .fault (.unwrittenSample i)) ∧
  (∀ (s : State) (i : Nat), s.pairFaultsAt .pktPrefix s.rxPos.toNat i →
    exec .rxPkt s = .fault (.unwrittenSample i)) ∧
  (∀ (s : State) (i : Nat), s.cfg.minRxSamples ≤ s.rxLen.toNat → 132 ≤ s.rxLen.toNat →
    s.pairFaultsAt .pktPrefix 0 i → exec .rxFrame s = .fault (.unwrittenSample i)) ∧
  (∀ (s : State) (f : Fault) (k : Nat), step s = .fault f → core.run (k + 1) s = .fault f)

/-- 60_exceptions.md R250 and R254: "The only model fault is the read of an unwritten sample". A command that
faults names a sample of the stream that was never written, and no command is refused. -/
def Obligations.OnlyFaultIsUnwrittenSample : Prop :=
  ∀ (i : Instr) (s : State),
    (∀ f, exec i s = .fault f → ∃ j, f = .unwrittenSample j ∧ j < s.rxLen.toNat ∧ s.rxw j = false) ∧
    ∀ r, exec i s ≠ .refused r

/-- 43_frame_sync.md R203 widened to every command, from 60_exceptions.md R254: on a stream whose samples have
all been written, every command completes. -/
def Obligations.CommandsCompleteOnWrittenStream : Prop :=
  ∀ (i : Instr) (s : State), s.streamWritten → ∃ t, exec i s = .next t

/-- 42_demodulator.md R160 and R161: DecodePacket expects PREFIX, then 64 pairs that are each ONE or else ZERO,
the first of them bit 63, then SUFFIX, then validates the word; on every exit its position is just after the
last pair that matched. Where a step reads an unwritten sample, every step before it having matched,
DecodePacket faults with that sample's index, whatever else is written (10_state.md R43). The clauses cover
every state and every index. -/
def Obligations.DecodePacketFollowsItsSteps : Prop :=
  ∀ (s : State) (p : Nat),
    let bitAt := fun k => p + 2 + 2 * k
    let isOne := fun k => s.pairInWindow .one (bitAt k)
    let isZero := fun k => s.pairMisses .one (bitAt k) ∧ s.pairInWindow .zero (bitAt k)
    (∀ i, s.pairFaultsAt .pktPrefix p i → s.decodePacket p = .error (.unwrittenSample i)) ∧
    (s.pairMisses .pktPrefix p → s.decodePacket p = .ok (.absent .noPrefix, p)) ∧
    (s.pairInWindow .pktPrefix p →
      (∀ bi, bi < 64 → (∀ k, k < bi → isOne k ∨ isZero k) →
        (∀ i, s.pairFaultsAt .one (bitAt bi) i → s.decodePacket p = .error (.unwrittenSample i)) ∧
        (s.pairMisses .one (bitAt bi) →
          (∀ i, s.pairFaultsAt .zero (bitAt bi) i → s.decodePacket p = .error (.unwrittenSample i)) ∧
          (s.pairMisses .zero (bitAt bi) → s.decodePacket p = .ok (.absent .badBit, bitAt bi)))) ∧
      ((∀ k, k < 64 → isOne k ∨ isZero k) →
        (∀ i, s.pairFaultsAt .pktSuffix (p + 130) i → s.decodePacket p = .error (.unwrittenSample i)) ∧
        (s.pairMisses .pktSuffix (p + 130) → s.decodePacket p = .ok (.absent .noSuffix, p + 130))) ∧
      (∀ w : PacketWord, (∀ k, k < 64 → if w.getLsbD (63 - k) then isOne k else isZero k) →
        s.pairInWindow .pktSuffix (p + 130) → s.decodePacket p = .ok (validate w, p + 132)))

/-- 42_demodulator.md R162, with R160: opcode 0x0A; RX_PKT's cursor and its record are DecodePacket's, with
VALID = 1 and ERR = NONE, or zeros, VALID = 0 and the code; nothing else changes. Where DecodePacket faults
RX_PKT faults alike, and where the samples it may reach are written it completes. -/
def Obligations.RxPktPublishesDecodedPacket : Prop :=
  (∀ w : Word, w.toNat % 256 = 0x0A → decode w = .ok .rxPkt) ∧
  ∀ s : State,
    let answers := fun (r : Parse) (q : Nat) => ∃ q' : Word, q'.toNat = q ∧
      exec .rxPkt s = .next (match r with
        | .ok rec => { s with
          rxPos := q', rxDevice := rec.device, rxChannel := rec.channel, rxCommand := rec.command,
          valid := true, err := .none }
        | .absent code => { s with
          rxPos := q', rxDevice := 0#24, rxChannel := 0#16, rxCommand := 0#8,
          valid := false, err := code })
    (∀ r q, s.decodePacket s.rxPos.toNat = .ok (r, q) → answers r q) ∧
    (∀ f, s.decodePacket s.rxPos.toNat = .error f → exec .rxPkt s = .fault f) ∧
    ((∀ i, s.rxPos.toNat ≤ i → i < s.rxPos.toNat + 132 → i < s.rxLen.toNat → s.rxw i = true) →
      ∃ r q, s.decodePacket s.rxPos.toNat = .ok (r, q) ∧ answers r q)

/-- The spec's sentence 42_demodulator.md R164, from R151 to R153, R160 and R165: at every tolerance the exact
rendering of a word decodes to that word, and RX_PKT on the packet of a record answers the record. -/
def Obligations.ExactPulsesDecodeAtEveryTolerance : Prop :=
  (∀ (s : State) (p : Nat) (w : PacketWord), s.tol.toNat ≤ 100 → p + 132 ≤ s.rxLen.toNat →
    s.holdsSamples p (render (pulseSeq w)) → s.decodePacket p = .ok (validate w, p + 132)) ∧
  ∀ (s : State) (r : Record), s.tol.toNat ≤ 100 → s.rxPos.toNat + 132 ≤ s.rxLen.toNat →
    s.holdsSamples s.rxPos.toNat (render (pulseSeq (packWord r.device r.channel r.command))) →
    exec .rxPkt s = .next { s with
      rxPos := s.rxPos + 132#32, rxDevice := r.device, rxChannel := r.channel, rxCommand := r.command,
      valid := true, err := .none }

/-- The spec's sentence 42_demodulator.md R163, from R151 to R153: at a tolerance of at most 37 no pair
matches both ONE and ZERO; at 38 the pair (380, −375) lies in both. -/
def Obligations.BitTemplatesDisjointUpTo37 : Prop :=
  (∀ (s : State) (p : Nat), s.tol.toNat ≤ 37 → s.pairMatch .one p = .ok true →
    s.pairMatch .zero p ≠ .ok true) ∧
  (inWindow 38#7 (markOf .one) 380 = true ∧ inWindow 38#7 (spaceOf .one) 375 = true ∧
    inWindow 38#7 (markOf .zero) 380 = true ∧ inWindow 38#7 (spaceOf .zero) 375 = true)

/-- 42_demodulator.md R152 and R166: DecodePacket reads no sample outside p .. p + 131 and none at or beyond
RX_LEN: two states that agree on the others, on RX_LEN and on TOL decode alike. -/
def Obligations.DecodePacketReadsOnly132Samples : Prop :=
  ∀ (s s' : State) (p : Nat), s'.rxLen = s.rxLen → s'.tol = s.tol →
    (∀ i, p ≤ i → i < p + 132 → i < s.rxLen.toNat → s'.rxWord i = s.rxWord i) →
    s'.decodePacket p = s.decodePacket p

/-! ### Deframer -/

/-- 43_frame_sync.md R198: a stream shorter than MIN_RX_SAMPLES is absent with SHORT, whatever has been
written; one of MIN_RX_SAMPLES or more is not SHORT. -/
def Obligations.RxFrameShortReadsNothing : Prop :=
  (∀ s t : State, s.cfg.minRxSamples ≤ s.rxLen.toNat → exec .rxFrame s = .next t → t.err ≠ .short) ∧
  ∀ s : State, s.rxLen.toNat < s.cfg.minRxSamples →
    exec .rxFrame s = .next { s with
      rxPos := 0#32, rxDevice := 0#24, rxChannel := 0#16, rxCommand := 0#8,
      rxPkts := 0#32, rxBad := 0#32, rxSkips := 0#32, rxNudges := 0#32,
      valid := false, err := .short }

/-- 43_frame_sync.md R199 and R200: one scan step is a Packet step if PREFIX matches at p, else a Nudge if it
matches at p + 1, else a Skip; each counts once, and the first ok packet latches. With 10_state.md R43: where the
test at p, the packet, or the test at p + 1 reads an unwritten sample, the scan step is that fault. -/
def Obligations.ScanStepPacketThenNudgeThenSkip : Prop :=
  ∀ (s : State) (c : Scan),
    (s.pairInWindow .pktPrefix c.pos →
      (∀ (rec : Record) (q : Nat), s.decodePacket c.pos = .ok (.ok rec, q) →
        ∃ c', s.scanStep c = .ok c' ∧ c'.pos = q ∧ c'.pkts = c.pkts + 1 ∧ c'.bad = c.bad ∧
          c'.skips = c.skips ∧ c'.nudges = c.nudges ∧ c'.first = some (c.first.getD rec)) ∧
      (∀ (code : ErrCode) (q : Nat), s.decodePacket c.pos = .ok (.absent code, q) →
        s.scanStep c = .ok { c with pos := q, bad := c.bad + 1 }) ∧
      (∀ f : Fault, s.decodePacket c.pos = .error f → s.scanStep c = .error f)) ∧
    (s.pairMisses .pktPrefix c.pos →
      (s.pairInWindow .pktPrefix (c.pos + 1) →
        s.scanStep c = .ok { c with pos := c.pos + 1, nudges := c.nudges + 1 }) ∧
      (s.pairMisses .pktPrefix (c.pos + 1) →
        s.scanStep c = .ok { c with pos := c.pos + 2, skips := c.skips + 1 }) ∧
      (∀ i, s.pairFaultsAt .pktPrefix (c.pos + 1) i → s.scanStep c = .error (.unwrittenSample i))) ∧
    (∀ i, s.pairFaultsAt .pktPrefix c.pos i → s.scanStep c = .error (.unwrittenSample i))

/-- 43_frame_sync.md R201: opcode 0x0B; on a stream long enough, RX_FRAME is the while loop of the rule, with
no bound on its iterations: where the loop reaches its end, RX_FRAME answers the first record with VALID = 1,
or NOT_FOUND with zeros, and nothing else changes; where a scan step of the loop faults, and only there,
RX_FRAME faults, with that fault (10_state.md R43); and on a written stream the loop reaches its end. That the
model bounds the loop by RX_LEN is its deduction (log 19). -/
def Obligations.RxFrameIsTheWhileLoop : Prop :=
  (∀ w : Word, w.toNat % 256 = 0x0B → decode w = .ok .rxFrame) ∧
  ∀ s : State, s.cfg.minRxSamples ≤ s.rxLen.toNat →
    let answers := fun c : Scan =>
      let t := { s with
        rxPos := BitVec.ofNat 32 c.pos
        rxPkts := BitVec.ofNat 32 c.pkts
        rxBad := BitVec.ofNat 32 c.bad
        rxSkips := BitVec.ofNat 32 c.skips
        rxNudges := BitVec.ofNat 32 c.nudges }
      (∀ rec, c.first = some rec → exec .rxFrame s = .next { t with
        rxDevice := rec.device, rxChannel := rec.channel, rxCommand := rec.command,
        valid := true, err := .none }) ∧
      (c.first = none → exec .rxFrame s = .next { t with
        rxDevice := 0#24, rxChannel := 0#16, rxCommand := 0#8, valid := false, err := .notFound })
    (∀ c, s.ScanRuns Scan.start c → answers c) ∧
    (∀ t, exec .rxFrame s = .next t → ∃ c, s.ScanRuns Scan.start c) ∧
    (∀ f, s.ScanFaults Scan.start f ↔ exec .rxFrame s = .fault f) ∧
    (s.streamWritten → ∃ c, s.ScanRuns Scan.start c ∧ answers c)

/-- The spec's sentences 43_frame_sync.md R202 and 10_state.md R38, from R199 to R201: the scan ends inside the
stream with fewer than 132 samples left, and its counters, which count its steps, do not wrap. -/
def Obligations.RxFrameStopsWithinStream : Prop :=
  ∀ s t : State, s.cfg.minRxSamples ≤ s.rxLen.toNat → exec .rxFrame s = .next t →
    t.rxPos.toNat ≤ s.rxLen.toNat ∧ s.rxLen.toNat < t.rxPos.toNat + 132 ∧
    t.rxPkts.toNat + t.rxBad.toNat + t.rxSkips.toNat + t.rxNudges.toNat ≤ t.rxPos.toNat ∧
    (t.valid = true ↔ 0 < t.rxPkts.toNat)

/-- The spec's sentence 43_frame_sync.md R204, from R191, R199 and R201: RX_FRAME on the exact rendering of a
frame, at a tolerance of at most 94. -/
def Obligations.CleanFrameDecodes : Prop :=
  ∀ (s : State) (r : Record), s.cfg.minRxSamples = 856 → s.tol.toNat ≤ 94 →
    let b := if r.command = s.cfg.cmdUp ∨ r.command = s.cfg.cmdDown then 2 else 1
    s.rxLen.toNat = 64 + 792 * b → s.holdsSamples 0 (render (frameSeq s.cfg r)) →
    exec .rxFrame s = .next { s with
      rxDevice := r.device, rxChannel := r.channel, rxCommand := r.command, valid := true, err := .none,
      rxPkts := BitVec.ofNat 32 (6 * b), rxBad := 0#32, rxSkips := 16#32, rxNudges := 0#32,
      rxPos := BitVec.ofNat 32 (32 + 792 * b) }

/-- The spec's sentence 43_frame_sync.md R205, from R199 and R201: one extra sample, of any value, just before
the prefix mark of any packet costs one nudge and no packet. -/
def Obligations.ExtraSampleBeforePrefixIsRecovered : Prop :=
  ∀ (s : State) (r : Record) (j : Nat) (x : Int), s.cfg.minRxSamples = 856 → s.tol.toNat ≤ 94 →
    let b := if r.command = s.cfg.cmdUp ∨ r.command = s.cfg.cmdDown then 2 else 1
    let clean := render (frameSeq s.cfg r)
    j < 6 * b → s.rxLen.toNat = 65 + 792 * b →
    s.holdsSamples 0 (clean.take (32 + 132 * j) ++ [x] ++ clean.drop (32 + 132 * j)) →
    exec .rxFrame s = .next { s with
      rxDevice := r.device, rxChannel := r.channel, rxCommand := r.command, valid := true, err := .none,
      rxPkts := BitVec.ofNat 32 (6 * b), rxBad := 0#32, rxSkips := 16#32, rxNudges := 1#32,
      rxPos := BitVec.ofNat 32 (33 + 792 * b) }

/-- The spec's sentence 43_frame_sync.md R206, from R191 and R160: in a frame of UP or DOWN, packets 0 to 5
decode to the record and packets 6 to 11 to the record with RELEASE, each at its own prefix. -/
def Obligations.UpDownFrameCarriesRelease : Prop :=
  ∀ (s : State) (r : Record) (j : Nat), s.tol.toNat ≤ 100 →
    r.command = s.cfg.cmdUp ∨ r.command = s.cfg.cmdDown →
    s.rxLen.toNat = 1648 → s.holdsSamples 0 (render (frameSeq s.cfg r)) → j < 12 →
    s.decodePacket (32 + 132 * j) =
      .ok (.ok (if j < 6 then r else { r with command := s.cfg.cmdRelease }), 32 + 132 * (j + 1))

/-! ### Rules of the whole machine -/

/-- 00_scope.md R12 and 10_state.md R30: a record-producing command ends with a record, VALID = 1 and
ERR = NONE, or with VALID = 0, ERR not NONE and a zero record. -/
def Obligations.AbsentResultExposesNothing : Prop :=
  ∀ (i : Instr) (s t : State), i = .unpack ∨ i = .rxPkt ∨ i = .rxFrame → exec i s = .next t →
    (t.valid = true ∧ t.err = .none) ∨
    (t.valid = false ∧ t.err ≠ .none ∧
      t.rxDevice = 0#24 ∧ t.rxChannel = 0#16 ∧ t.rxCommand = 0#8)

/-- 10_state.md R24, R29 to R38: which commands can write which register. SOFT_RESET writes all. The fields
of the model's own are no command's. -/
def Obligations.RegistersHaveTheirWriters : Prop :=
  ∀ (i : Instr) (s t : State), exec i s = .next t →
    (t.cfg = s.cfg ∧ t.host = s.host ∧ t.busData = s.busData ∧ t.powerOns = s.powerOns) ∧
    (i ≠ .softReset →
      t.busy = s.busy ∧ t.device = s.device ∧ t.channel = s.channel ∧ t.command = s.command ∧
      t.rxLen = s.rxLen ∧ t.tol = s.tol ∧
      (i ≠ .unpack → i ≠ .rxPkt → i ≠ .rxFrame →
        t.valid = s.valid ∧ t.rxDevice = s.rxDevice ∧ t.rxChannel = s.rxChannel ∧
        t.rxCommand = s.rxCommand) ∧
      ((∀ tp off, i ≠ .rxMatch tp off) → (∀ tp, i ≠ .rxExpect tp) → t.matched = s.matched) ∧
      (i ≠ .pack → t.pktLo = s.pktLo ∧ t.pktHi = s.pktHi) ∧
      (i ≠ .pack → i ≠ .cksum → t.cksum = s.cksum) ∧
      ((∀ tp, i ≠ .rxExpect tp) → (∀ n, i ≠ .rxAdvance n) → i ≠ .rxPkt → i ≠ .rxFrame →
        t.rxPos = s.rxPos) ∧
      (i ≠ .txClear → i ≠ .emitPkt → i ≠ .txFrame → t.txCount = s.txCount) ∧
      (i ≠ .txFrame → t.txHint = s.txHint ∧ t.carrier = s.carrier ∧ t.txPkts = s.txPkts) ∧
      (i ≠ .rxFrame → t.rxPkts = s.rxPkts ∧ t.rxBad = s.rxBad ∧ t.rxSkips = s.rxSkips ∧
        t.rxNudges = s.rxNudges))

/-- 10_state.md R40 ("The block only reads it and never writes it") and R41: no command changes a sample or a
written mark, and only EMIT_PKT and TX_FRAME change a stored byte. -/
def Obligations.CommandsNeverWriteSamples : Prop :=
  ∀ (i : Instr) (s t : State), s.cfg.Valid → exec i s = .next t →
    (∀ j, j < s.cfg.rxCap → t.rxWord j = s.rxWord j ∧ t.rxw j = s.rxw j) ∧
    (∀ a, a < txBase ∨ txMarkAddr s.cfg.txCap ≤ a → t.mem.readByte a = s.mem.readByte a) ∧
    (i ≠ .emitPkt → i ≠ .txFrame → ∀ a, t.mem.readByte a = s.mem.readByte a)

/-- The spec's sentence 10_state.md R49: "No command reads STATUS", so a command from two states that differ in
VALID, MATCH and ERR alone ends the same way, with the same ERR and every other register alike. -/
def Obligations.NoCommandReadsStatus : Prop :=
  ∀ (i : Instr) (s : State) (v m : Bool) (e : ErrCode),
    match exec i s, exec i { s with valid := v, matched := m, err := e } with
    | .next t, .next t' => t' = { t with valid := t'.valid, matched := t'.matched } ∧
      (t'.valid = t.valid ∨ (t.valid = s.valid ∧ t'.valid = v)) ∧
      (t'.matched = t.matched ∨ (t.matched = s.matched ∧ t'.matched = m))
    | .fault f, .fault f' => f = f'
    | _, _ => False

/-- 10_state.md R48: "A command's result depends only on the registers, RXMEM and RXW as they stand when the
CMD write occurs, and on the fixed constants": stored TX pairs, pending accesses, the last answer and the
power-on count do not reach a register, the outcome, or an entry the command emits. -/
def Obligations.ResultDependsOnRegistersAndSamples : Prop :=
  ∀ (i : Instr) (s : State) (m : Memory) (h : List HostOp) (d : Option Word) (k : Nat),
    (∀ j, j < s.rxLen.toNat → ({ s with mem := m } : State).rxWord j = s.rxWord j) →
    match exec i s, exec i { s with mem := m, host := h, busData := d, powerOns := k } with
    | .next t, .next t' => t' = { t with mem := t'.mem, host := h, busData := d, powerOns := k } ∧
      (s.cfg.Valid → ∀ j, s.txCount.toNat ≤ j ∨ i = .txFrame → t'.txPair j = t.txPair j)
    | .fault f, .fault f' => f = f'
    | _, _ => False

/-- The invariant holds after reset: the parameters are legal, nothing is stored, every register is in its
range. The parameters are the model's choice (log 2, log 3). -/
def Obligations.ResetMeetsInvariant : Prop := State.reset.Inv

/-- Every step keeps the invariant, from every state that meets it: canonical memory inside the two buffers
(20_memory.md R61), RX_LEN, TX_COUNT and TOL in range (10_state.md R31, R33, R36), BUSY = 0 (R24), every
emitted pair a template (30_encoding.md R87), a zero record while VALID = 0 (00_scope.md R12), counters that
do not wrap (R38). -/
def Obligations.EveryStepKeepsInvariant : Prop :=
  ∀ s t : State, s.Inv → step s = .next t → t.Inv
end

