-- ==== Sys2Proof/Laws/Memory.lean ====
section
/-! SUPPORT. The laws of the buffers' memory: a read after a store gives what was stored, every other byte
reads as before, and every store keeps the canonical form. -/
namespace Sys2Proof.Machine

/-! ### Cells -/

theorem cellsAt_bounds {a : Nat} {bs : List Byte} {c : Host.Cell} (h : c ∈ cellsAt a bs) :
    a ≤ c.1 ∧ c.1 < a + bs.length := by
  induction bs generalizing a with
  | nil => simp [cellsAt] at h
  | cons b bs ih =>
    rcases List.mem_cons.1 h with rfl | h
    · simp
    · have := ih h
      simp only [List.length_cons]
      omega

theorem cellsAt_wf (a : Nat) (bs : List Byte) : Memory.wf (cellsAt a bs) := by
  induction bs generalizing a with
  | nil => exact List.Pairwise.nil
  | cons b bs ih =>
    refine List.Pairwise.cons (fun c hc => ?_) (ih (a + 1))
    have := cellsAt_bounds hc
    show a < c.1
    omega

theorem lookup_cellsAt (a x : Nat) (bs : List Byte) (h : a ≤ x) :
    List.lookup x (cellsAt a bs) = bs[x - a]? := by
  induction bs generalizing a with
  | nil => simp [cellsAt]
  | cons b bs ih =>
    by_cases hx : x = a
    · subst hx
      simp [cellsAt]
    · have hb : (x == a) = false := by simpa using hx
      obtain ⟨k, rfl⟩ : ∃ k, x = a + 1 + k := ⟨x - (a + 1), by omega⟩
      have e : a + 1 + k - a = k + 1 := by omega
      have e' : a + 1 + k - (a + 1) = k := by omega
      rw [cellsAt, List.lookup_cons, hb, ih (a + 1) (by omega), e, e']
      rfl

theorem lookup_filter_of_true (m : Memory) (p : Host.Cell → Bool) (x : Nat)
    (h : ∀ b, p (x, b) = true) : List.lookup x (m.filter p) = List.lookup x m := by
  induction m with
  | nil => rfl
  | cons c m ih =>
    obtain ⟨y, b⟩ := c
    by_cases hx : x = y
    · subst hx
      simp [h]
    · have hb : (x == y) = false := by simpa using hx
      by_cases hp : p (y, b) = true
      · simp [hp, List.lookup_cons, hb, ih]
      · simp [hp, List.lookup_cons, hb, ih]

theorem lookup_filter_of_false (m : Memory) (p : Host.Cell → Bool) (x : Nat)
    (h : ∀ b, p (x, b) = false) : List.lookup x (m.filter p) = none := by
  induction m with
  | nil => rfl
  | cons c m ih =>
    obtain ⟨y, b⟩ := c
    by_cases hp : p (y, b) = true
    · have hx : (x == y) = false := by
        rw [beq_eq_false_iff_ne]
        rintro rfl
        simp [h] at hp
      simp [hp, List.lookup_cons, hx, ih]
    · simp [hp, ih]

theorem lookup_append (x : Nat) (l₁ l₂ : Memory) :
    List.lookup x (l₁ ++ l₂) = (List.lookup x l₁).or (List.lookup x l₂) := by
  induction l₁ with
  | nil => rfl
  | cons c l ih =>
    obtain ⟨y, b⟩ := c
    by_cases hx : (x == y) = true <;> simp [List.lookup_cons, hx, ih]

theorem lookup_cellsAt_below (a x : Nat) (bs : List Byte) (h : x < a) :
    List.lookup x (cellsAt a bs) = none := by
  induction bs generalizing a with
  | nil => rfl
  | cons b bs ih =>
    have hb : (x == a) = false := by
      rw [beq_eq_false_iff_ne]
      omega
    rw [cellsAt, List.lookup_cons, hb]
    exact ih (a + 1) (by omega)

/-! ### Bytes -/

/-- What every byte reads as after a store: the stored bytes, else what it read as before. -/
theorem readByte_storeBytes (m : Memory) (a x : Nat) (bs : List Byte) :
    (Memory.storeBytes m a bs).readByte x =
      if a ≤ x ∧ x < a + bs.length then bs[x - a]? else m.readByte x := by
  unfold Memory.storeBytes Memory.readByte
  rw [lookup_append, lookup_append]
  by_cases h1 : x < a
  · rw [lookup_filter_of_true m _ x (by simp [h1]), lookup_cellsAt_below a x bs h1,
      lookup_filter_of_false m _ x (by intro b; simp; omega), if_neg (by omega)]
    simp
  · rw [lookup_filter_of_false m _ x (by intro b; simp; omega), lookup_cellsAt a x bs (by omega)]
    by_cases h2 : x < a + bs.length
    · rw [if_pos ⟨by omega, h2⟩, lookup_filter_of_false m _ x (by intro b; simp; omega)]
      simp
    · rw [if_neg (by omega), lookup_filter_of_true m _ x (by intro b; simp; omega),
        List.getElem?_eq_none (by omega)]
      simp

theorem readByte_storeBytes_outside {m : Memory} {a x : Nat} {bs : List Byte}
    (h : x < a ∨ a + bs.length ≤ x) : (Memory.storeBytes m a bs).readByte x = m.readByte x := by
  rw [readByte_storeBytes, if_neg (by omega)]

/-- Every store keeps the canonical form. -/
theorem storeBytes_wf {m : Memory} (h : Memory.wf m) (a : Nat) (bs : List Byte) :
    Memory.wf (m.storeBytes a bs) := by
  unfold Memory.storeBytes
  refine List.pairwise_append.2 ⟨List.pairwise_append.2 ⟨h.filter _, cellsAt_wf a bs, ?_⟩, h.filter _, ?_⟩
  · intro c hc d hd
    have h1 := (List.mem_filter.1 hc).2
    have h2 := cellsAt_bounds hd
    simp only [decide_eq_true_eq] at h1
    omega
  · intro c hc d hd
    have h2 := (List.mem_filter.1 hd).2
    simp only [decide_eq_true_eq] at h2
    rcases List.mem_append.1 hc with hc | hc
    · have h1 := (List.mem_filter.1 hc).2
      simp only [decide_eq_true_eq] at h1
      omega
    · have h1 := cellsAt_bounds hc
      omega

/-- A store lists nothing outside its bytes that was not listed. -/
theorem mem_storeBytes {m : Memory} {a : Nat} {bs : List Byte} {c : Host.Cell}
    (h : c ∈ m.storeBytes a bs) : c ∈ m ∨ (a ≤ c.1 ∧ c.1 < a + bs.length) := by
  unfold Memory.storeBytes at h
  rcases List.mem_append.1 h with h | h
  · rcases List.mem_append.1 h with h | h
    · exact .inl (List.mem_filter.1 h).1
    · exact .inr (cellsAt_bounds h)
  · exact .inl (List.mem_filter.1 h).1

/-! ### Words -/

@[simp] theorem wordBytes_length (v : Word) : (wordBytes v).length = 4 := rfl

theorem wordOfBytes_wordBytes (v : Word) :
    wordOfBytes (v.extractLsb' 0 8) (v.extractLsb' 8 8) (v.extractLsb' 16 8) (v.extractLsb' 24 8) = v := by
  unfold wordOfBytes
  apply BitVec.eq_of_getLsbD_eq
  intro i hi
  simp only [BitVec.getLsbD_append, BitVec.getLsbD_extractLsb']
  rcases (by omega : i < 8 ∨ (8 ≤ i ∧ i < 16) ∨ (16 ≤ i ∧ i < 24) ∨ (24 ≤ i ∧ i < 32)) with
    h | h | h | h
  · simp [h]
  · simp [show ¬ i < 8 by omega, show i - 8 < 8 by omega, show 8 + (i - 8) = i by omega]
  · simp [show ¬ i < 8 by omega, show ¬ i - 8 < 8 by omega, show i - 8 - 8 < 8 by omega,
      show 16 + (i - 8 - 8) = i by omega]
  · simp [show ¬ i < 8 by omega, show ¬ i - 8 < 8 by omega, show ¬ i - 8 - 8 < 8 by omega,
      show i - 8 - 8 - 8 < 8 by omega, show 24 + (i - 8 - 8 - 8) = i by omega]

theorem readByte_storeWord (m : Memory) (a k : Nat) (v : Word) (h : k < 4) :
    (m.storeWord a v).readByte (a + k) = (wordBytes v)[k]? := by
  rw [Memory.storeWord, readByte_storeBytes, if_pos ⟨by omega, by simp; omega⟩, Nat.add_sub_cancel_left]

/-- A word reads back as it was stored. -/
@[simp] theorem readWord_storeWord (m : Memory) (a : Nat) (v : Word) :
    (m.storeWord a v).readWord a = some v := by
  have h0 := readByte_storeWord m a 0 v (by omega)
  rw [Nat.add_zero] at h0
  rw [Memory.readWord, h0, readByte_storeWord m a 1 v (by omega), readByte_storeWord m a 2 v (by omega),
    readByte_storeWord m a 3 v (by omega)]
  exact congrArg some (wordOfBytes_wordBytes v)

/-- A word reads as before after a store to another place. -/
theorem readWord_storeWord_of_disjoint {m : Memory} {a b : Nat} {v : Word} (h : a + 4 ≤ b ∨ b + 4 ≤ a) :
    (m.storeWord a v).readWord b = m.readWord b := by
  unfold Memory.readWord Memory.storeWord
  rw [readByte_storeBytes_outside (by simp; omega), readByte_storeBytes_outside (by simp; omega),
    readByte_storeBytes_outside (by simp; omega), readByte_storeBytes_outside (by simp; omega)]

theorem readByte_storeWord_of_outside {m : Memory} {a x : Nat} {v : Word} (h : x < a ∨ a + 4 ≤ x) :
    (m.storeWord a v).readByte x = m.readByte x :=
  readByte_storeBytes_outside (by simpa using h)

theorem storeWord_wf {m : Memory} (h : Memory.wf m) (a : Nat) (v : Word) : Memory.wf (m.storeWord a v) :=
  storeBytes_wf h a _

theorem mem_storeWord {m : Memory} {a : Nat} {v : Word} {c : Host.Cell} (h : c ∈ m.storeWord a v) :
    c ∈ m ∨ (a ≤ c.1 ∧ c.1 < a + 4) := by
  simpa using mem_storeBytes h

/-! ### Samples and pairs -/

@[simp] theorem rxWord_storeRx (s : State) (i : Nat) (v : Word) : (s.storeRx i v).rxWord i = some v :=
  readWord_storeWord _ _ _

theorem rxWord_storeRx_of_ne {s : State} {i j : Nat} {v : Word} (h : j ≠ i) :
    (s.storeRx i v).rxWord j = s.rxWord j :=
  readWord_storeWord_of_disjoint (by unfold rxAddr; omega)

@[simp] theorem rxw_storeRx (s : State) (i : Nat) (v : Word) : (s.storeRx i v).rxw i = true := by
  simp [State.rxw]

/-- TxAppend stores its pair at the entry TX_COUNT. -/
@[simp] theorem txStored_txAppend (s : State) (mk sp : Word) :
    (s.txAppend mk sp).txStored s.txCount.toNat = some (mk, sp) := by
  unfold State.txStored State.txAppend
  rw [readWord_storeWord_of_disjoint (by unfold txMarkAddr txSpaceAddr; omega)]
  simp

theorem txStored_txAppend_of_ne {s : State} {mk sp : Word} {j : Nat} (h : j ≠ s.txCount.toNat) :
    (s.txAppend mk sp).txStored j = s.txStored j := by
  unfold State.txStored State.txAppend
  rw [readWord_storeWord_of_disjoint (by unfold txMarkAddr txSpaceAddr; omega),
    readWord_storeWord_of_disjoint (by unfold txMarkAddr; omega),
    readWord_storeWord_of_disjoint (by unfold txSpaceAddr; omega),
    readWord_storeWord_of_disjoint (by unfold txMarkAddr txSpaceAddr; omega)]

theorem readByte_txAppend_of_outside {s : State} {mk sp : Word} {x : Nat}
    (h : x < txMarkAddr s.txCount.toNat ∨ txMarkAddr s.txCount.toNat + 8 ≤ x) :
    (s.txAppend mk sp).mem.readByte x = s.mem.readByte x := by
  unfold State.txAppend
  show Memory.readByte (Memory.storeWord _ _ _) x = _
  rw [readByte_storeWord_of_outside (by unfold txMarkAddr txSpaceAddr at *; omega),
    readByte_storeWord_of_outside (by unfold txMarkAddr at *; omega)]

/-! ### The canonical form -/

theorem reset_mem_wf : Memory.wf State.reset.mem := List.Pairwise.nil

theorem storeRx_wf {s : State} (h : Memory.wf s.mem) (i : Nat) (v : Word) : Memory.wf (s.storeRx i v).mem :=
  storeWord_wf h _ _

theorem txAppend_wf {s : State} (h : Memory.wf s.mem) (mk sp : Word) : Memory.wf (s.txAppend mk sp).mem :=
  storeWord_wf (storeWord_wf h _ _) _ _

theorem powerOn_mem_wf (s : State) : Memory.wf s.powerOn.mem := List.Pairwise.nil

theorem rxWord_eq_of_readByte {s t : State} {i : Nat}
    (h : ∀ x, rxAddr i ≤ x → x < rxAddr i + 4 → t.mem.readByte x = s.mem.readByte x) :
    t.rxWord i = s.rxWord i := by
  unfold State.rxWord Memory.readWord
  rw [h _ (by omega) (by omega), h _ (by omega) (by omega), h _ (by omega) (by omega),
    h _ (by omega) (by omega)]

end Sys2Proof.Machine
end

