-- ==== Sys2Proof/Laws/State.lean ====
section
/-! SUPPORT. What each update of State leaves in each field, one lemma per field per update, each true by
unfolding the update. -/
namespace Sys2Proof.Machine

@[simp] theorem State.finish_cfg (s : State) (c : ErrCode) :
    (s.finish c).cfg = s.cfg := rfl
@[simp] theorem State.finish_valid (s : State) (c : ErrCode) :
    (s.finish c).valid = s.valid := rfl
@[simp] theorem State.finish_matched (s : State) (c : ErrCode) :
    (s.finish c).matched = s.matched := rfl
@[simp] theorem State.finish_busy (s : State) (c : ErrCode) :
    (s.finish c).busy = s.busy := rfl
@[simp] theorem State.finish_err (s : State) (c : ErrCode) :
    (s.finish c).err = c := rfl
@[simp] theorem State.finish_device (s : State) (c : ErrCode) :
    (s.finish c).device = s.device := rfl
@[simp] theorem State.finish_channel (s : State) (c : ErrCode) :
    (s.finish c).channel = s.channel := rfl
@[simp] theorem State.finish_command (s : State) (c : ErrCode) :
    (s.finish c).command = s.command := rfl
@[simp] theorem State.finish_pktLo (s : State) (c : ErrCode) :
    (s.finish c).pktLo = s.pktLo := rfl
@[simp] theorem State.finish_pktHi (s : State) (c : ErrCode) :
    (s.finish c).pktHi = s.pktHi := rfl
@[simp] theorem State.finish_cksum (s : State) (c : ErrCode) :
    (s.finish c).cksum = s.cksum := rfl
@[simp] theorem State.finish_rxDevice (s : State) (c : ErrCode) :
    (s.finish c).rxDevice = s.rxDevice := rfl
@[simp] theorem State.finish_rxChannel (s : State) (c : ErrCode) :
    (s.finish c).rxChannel = s.rxChannel := rfl
@[simp] theorem State.finish_rxCommand (s : State) (c : ErrCode) :
    (s.finish c).rxCommand = s.rxCommand := rfl
@[simp] theorem State.finish_rxLen (s : State) (c : ErrCode) :
    (s.finish c).rxLen = s.rxLen := rfl
@[simp] theorem State.finish_rxPos (s : State) (c : ErrCode) :
    (s.finish c).rxPos = s.rxPos := rfl
@[simp] theorem State.finish_txCount (s : State) (c : ErrCode) :
    (s.finish c).txCount = s.txCount := rfl
@[simp] theorem State.finish_txHint (s : State) (c : ErrCode) :
    (s.finish c).txHint = s.txHint := rfl
@[simp] theorem State.finish_carrier (s : State) (c : ErrCode) :
    (s.finish c).carrier = s.carrier := rfl
@[simp] theorem State.finish_tol (s : State) (c : ErrCode) :
    (s.finish c).tol = s.tol := rfl
@[simp] theorem State.finish_txPkts (s : State) (c : ErrCode) :
    (s.finish c).txPkts = s.txPkts := rfl
@[simp] theorem State.finish_rxPkts (s : State) (c : ErrCode) :
    (s.finish c).rxPkts = s.rxPkts := rfl
@[simp] theorem State.finish_rxBad (s : State) (c : ErrCode) :
    (s.finish c).rxBad = s.rxBad := rfl
@[simp] theorem State.finish_rxSkips (s : State) (c : ErrCode) :
    (s.finish c).rxSkips = s.rxSkips := rfl
@[simp] theorem State.finish_rxNudges (s : State) (c : ErrCode) :
    (s.finish c).rxNudges = s.rxNudges := rfl
@[simp] theorem State.finish_mem (s : State) (c : ErrCode) :
    (s.finish c).mem = s.mem := rfl
@[simp] theorem State.finish_host (s : State) (c : ErrCode) :
    (s.finish c).host = s.host := rfl
@[simp] theorem State.finish_busData (s : State) (c : ErrCode) :
    (s.finish c).busData = s.busData := rfl
@[simp] theorem State.finish_powerOns (s : State) (c : ErrCode) :
    (s.finish c).powerOns = s.powerOns := rfl

@[simp] theorem State.setMatch_cfg (s : State) (m : Bool) :
    (s.setMatch m).cfg = s.cfg := rfl
@[simp] theorem State.setMatch_valid (s : State) (m : Bool) :
    (s.setMatch m).valid = s.valid := rfl
@[simp] theorem State.setMatch_matched (s : State) (m : Bool) :
    (s.setMatch m).matched = m := rfl
@[simp] theorem State.setMatch_busy (s : State) (m : Bool) :
    (s.setMatch m).busy = s.busy := rfl
@[simp] theorem State.setMatch_err (s : State) (m : Bool) :
    (s.setMatch m).err = s.err := rfl
@[simp] theorem State.setMatch_device (s : State) (m : Bool) :
    (s.setMatch m).device = s.device := rfl
@[simp] theorem State.setMatch_channel (s : State) (m : Bool) :
    (s.setMatch m).channel = s.channel := rfl
@[simp] theorem State.setMatch_command (s : State) (m : Bool) :
    (s.setMatch m).command = s.command := rfl
@[simp] theorem State.setMatch_pktLo (s : State) (m : Bool) :
    (s.setMatch m).pktLo = s.pktLo := rfl
@[simp] theorem State.setMatch_pktHi (s : State) (m : Bool) :
    (s.setMatch m).pktHi = s.pktHi := rfl
@[simp] theorem State.setMatch_cksum (s : State) (m : Bool) :
    (s.setMatch m).cksum = s.cksum := rfl
@[simp] theorem State.setMatch_rxDevice (s : State) (m : Bool) :
    (s.setMatch m).rxDevice = s.rxDevice := rfl
@[simp] theorem State.setMatch_rxChannel (s : State) (m : Bool) :
    (s.setMatch m).rxChannel = s.rxChannel := rfl
@[simp] theorem State.setMatch_rxCommand (s : State) (m : Bool) :
    (s.setMatch m).rxCommand = s.rxCommand := rfl
@[simp] theorem State.setMatch_rxLen (s : State) (m : Bool) :
    (s.setMatch m).rxLen = s.rxLen := rfl
@[simp] theorem State.setMatch_rxPos (s : State) (m : Bool) :
    (s.setMatch m).rxPos = s.rxPos := rfl
@[simp] theorem State.setMatch_txCount (s : State) (m : Bool) :
    (s.setMatch m).txCount = s.txCount := rfl
@[simp] theorem State.setMatch_txHint (s : State) (m : Bool) :
    (s.setMatch m).txHint = s.txHint := rfl
@[simp] theorem State.setMatch_carrier (s : State) (m : Bool) :
    (s.setMatch m).carrier = s.carrier := rfl
@[simp] theorem State.setMatch_tol (s : State) (m : Bool) :
    (s.setMatch m).tol = s.tol := rfl
@[simp] theorem State.setMatch_txPkts (s : State) (m : Bool) :
    (s.setMatch m).txPkts = s.txPkts := rfl
@[simp] theorem State.setMatch_rxPkts (s : State) (m : Bool) :
    (s.setMatch m).rxPkts = s.rxPkts := rfl
@[simp] theorem State.setMatch_rxBad (s : State) (m : Bool) :
    (s.setMatch m).rxBad = s.rxBad := rfl
@[simp] theorem State.setMatch_rxSkips (s : State) (m : Bool) :
    (s.setMatch m).rxSkips = s.rxSkips := rfl
@[simp] theorem State.setMatch_rxNudges (s : State) (m : Bool) :
    (s.setMatch m).rxNudges = s.rxNudges := rfl
@[simp] theorem State.setMatch_mem (s : State) (m : Bool) :
    (s.setMatch m).mem = s.mem := rfl
@[simp] theorem State.setMatch_host (s : State) (m : Bool) :
    (s.setMatch m).host = s.host := rfl
@[simp] theorem State.setMatch_busData (s : State) (m : Bool) :
    (s.setMatch m).busData = s.busData := rfl
@[simp] theorem State.setMatch_powerOns (s : State) (m : Bool) :
    (s.setMatch m).powerOns = s.powerOns := rfl

@[simp] theorem State.setOutput_cfg (s : State) (r : Record) :
    (s.setOutput r).cfg = s.cfg := rfl
@[simp] theorem State.setOutput_valid (s : State) (r : Record) :
    (s.setOutput r).valid = s.valid := rfl
@[simp] theorem State.setOutput_matched (s : State) (r : Record) :
    (s.setOutput r).matched = s.matched := rfl
@[simp] theorem State.setOutput_busy (s : State) (r : Record) :
    (s.setOutput r).busy = s.busy := rfl
@[simp] theorem State.setOutput_err (s : State) (r : Record) :
    (s.setOutput r).err = s.err := rfl
@[simp] theorem State.setOutput_device (s : State) (r : Record) :
    (s.setOutput r).device = s.device := rfl
@[simp] theorem State.setOutput_channel (s : State) (r : Record) :
    (s.setOutput r).channel = s.channel := rfl
@[simp] theorem State.setOutput_command (s : State) (r : Record) :
    (s.setOutput r).command = s.command := rfl
@[simp] theorem State.setOutput_pktLo (s : State) (r : Record) :
    (s.setOutput r).pktLo = s.pktLo := rfl
@[simp] theorem State.setOutput_pktHi (s : State) (r : Record) :
    (s.setOutput r).pktHi = s.pktHi := rfl
@[simp] theorem State.setOutput_cksum (s : State) (r : Record) :
    (s.setOutput r).cksum = s.cksum := rfl
@[simp] theorem State.setOutput_rxDevice (s : State) (r : Record) :
    (s.setOutput r).rxDevice = r.device := rfl
@[simp] theorem State.setOutput_rxChannel (s : State) (r : Record) :
    (s.setOutput r).rxChannel = r.channel := rfl
@[simp] theorem State.setOutput_rxCommand (s : State) (r : Record) :
    (s.setOutput r).rxCommand = r.command := rfl
@[simp] theorem State.setOutput_rxLen (s : State) (r : Record) :
    (s.setOutput r).rxLen = s.rxLen := rfl
@[simp] theorem State.setOutput_rxPos (s : State) (r : Record) :
    (s.setOutput r).rxPos = s.rxPos := rfl
@[simp] theorem State.setOutput_txCount (s : State) (r : Record) :
    (s.setOutput r).txCount = s.txCount := rfl
@[simp] theorem State.setOutput_txHint (s : State) (r : Record) :
    (s.setOutput r).txHint = s.txHint := rfl
@[simp] theorem State.setOutput_carrier (s : State) (r : Record) :
    (s.setOutput r).carrier = s.carrier := rfl
@[simp] theorem State.setOutput_tol (s : State) (r : Record) :
    (s.setOutput r).tol = s.tol := rfl
@[simp] theorem State.setOutput_txPkts (s : State) (r : Record) :
    (s.setOutput r).txPkts = s.txPkts := rfl
@[simp] theorem State.setOutput_rxPkts (s : State) (r : Record) :
    (s.setOutput r).rxPkts = s.rxPkts := rfl
@[simp] theorem State.setOutput_rxBad (s : State) (r : Record) :
    (s.setOutput r).rxBad = s.rxBad := rfl
@[simp] theorem State.setOutput_rxSkips (s : State) (r : Record) :
    (s.setOutput r).rxSkips = s.rxSkips := rfl
@[simp] theorem State.setOutput_rxNudges (s : State) (r : Record) :
    (s.setOutput r).rxNudges = s.rxNudges := rfl
@[simp] theorem State.setOutput_mem (s : State) (r : Record) :
    (s.setOutput r).mem = s.mem := rfl
@[simp] theorem State.setOutput_host (s : State) (r : Record) :
    (s.setOutput r).host = s.host := rfl
@[simp] theorem State.setOutput_busData (s : State) (r : Record) :
    (s.setOutput r).busData = s.busData := rfl
@[simp] theorem State.setOutput_powerOns (s : State) (r : Record) :
    (s.setOutput r).powerOns = s.powerOns := rfl

@[simp] theorem State.setPkt_cfg (s : State) (p : PacketWord) :
    (s.setPkt p).cfg = s.cfg := rfl
@[simp] theorem State.setPkt_valid (s : State) (p : PacketWord) :
    (s.setPkt p).valid = s.valid := rfl
@[simp] theorem State.setPkt_matched (s : State) (p : PacketWord) :
    (s.setPkt p).matched = s.matched := rfl
@[simp] theorem State.setPkt_busy (s : State) (p : PacketWord) :
    (s.setPkt p).busy = s.busy := rfl
@[simp] theorem State.setPkt_err (s : State) (p : PacketWord) :
    (s.setPkt p).err = s.err := rfl
@[simp] theorem State.setPkt_device (s : State) (p : PacketWord) :
    (s.setPkt p).device = s.device := rfl
@[simp] theorem State.setPkt_channel (s : State) (p : PacketWord) :
    (s.setPkt p).channel = s.channel := rfl
@[simp] theorem State.setPkt_command (s : State) (p : PacketWord) :
    (s.setPkt p).command = s.command := rfl
@[simp] theorem State.setPkt_pktLo (s : State) (p : PacketWord) :
    (s.setPkt p).pktLo = p.extractLsb' 0 32 := rfl
@[simp] theorem State.setPkt_pktHi (s : State) (p : PacketWord) :
    (s.setPkt p).pktHi = p.extractLsb' 32 32 := rfl
@[simp] theorem State.setPkt_cksum (s : State) (p : PacketWord) :
    (s.setPkt p).cksum = s.cksum := rfl
@[simp] theorem State.setPkt_rxDevice (s : State) (p : PacketWord) :
    (s.setPkt p).rxDevice = s.rxDevice := rfl
@[simp] theorem State.setPkt_rxChannel (s : State) (p : PacketWord) :
    (s.setPkt p).rxChannel = s.rxChannel := rfl
@[simp] theorem State.setPkt_rxCommand (s : State) (p : PacketWord) :
    (s.setPkt p).rxCommand = s.rxCommand := rfl
@[simp] theorem State.setPkt_rxLen (s : State) (p : PacketWord) :
    (s.setPkt p).rxLen = s.rxLen := rfl
@[simp] theorem State.setPkt_rxPos (s : State) (p : PacketWord) :
    (s.setPkt p).rxPos = s.rxPos := rfl
@[simp] theorem State.setPkt_txCount (s : State) (p : PacketWord) :
    (s.setPkt p).txCount = s.txCount := rfl
@[simp] theorem State.setPkt_txHint (s : State) (p : PacketWord) :
    (s.setPkt p).txHint = s.txHint := rfl
@[simp] theorem State.setPkt_carrier (s : State) (p : PacketWord) :
    (s.setPkt p).carrier = s.carrier := rfl
@[simp] theorem State.setPkt_tol (s : State) (p : PacketWord) :
    (s.setPkt p).tol = s.tol := rfl
@[simp] theorem State.setPkt_txPkts (s : State) (p : PacketWord) :
    (s.setPkt p).txPkts = s.txPkts := rfl
@[simp] theorem State.setPkt_rxPkts (s : State) (p : PacketWord) :
    (s.setPkt p).rxPkts = s.rxPkts := rfl
@[simp] theorem State.setPkt_rxBad (s : State) (p : PacketWord) :
    (s.setPkt p).rxBad = s.rxBad := rfl
@[simp] theorem State.setPkt_rxSkips (s : State) (p : PacketWord) :
    (s.setPkt p).rxSkips = s.rxSkips := rfl
@[simp] theorem State.setPkt_rxNudges (s : State) (p : PacketWord) :
    (s.setPkt p).rxNudges = s.rxNudges := rfl
@[simp] theorem State.setPkt_mem (s : State) (p : PacketWord) :
    (s.setPkt p).mem = s.mem := rfl
@[simp] theorem State.setPkt_host (s : State) (p : PacketWord) :
    (s.setPkt p).host = s.host := rfl
@[simp] theorem State.setPkt_busData (s : State) (p : PacketWord) :
    (s.setPkt p).busData = s.busData := rfl
@[simp] theorem State.setPkt_powerOns (s : State) (p : PacketWord) :
    (s.setPkt p).powerOns = s.powerOns := rfl

@[simp] theorem State.setRxPos_cfg (s : State) (p : Nat) :
    (s.setRxPos p).cfg = s.cfg := rfl
@[simp] theorem State.setRxPos_valid (s : State) (p : Nat) :
    (s.setRxPos p).valid = s.valid := rfl
@[simp] theorem State.setRxPos_matched (s : State) (p : Nat) :
    (s.setRxPos p).matched = s.matched := rfl
@[simp] theorem State.setRxPos_busy (s : State) (p : Nat) :
    (s.setRxPos p).busy = s.busy := rfl
@[simp] theorem State.setRxPos_err (s : State) (p : Nat) :
    (s.setRxPos p).err = s.err := rfl
@[simp] theorem State.setRxPos_device (s : State) (p : Nat) :
    (s.setRxPos p).device = s.device := rfl
@[simp] theorem State.setRxPos_channel (s : State) (p : Nat) :
    (s.setRxPos p).channel = s.channel := rfl
@[simp] theorem State.setRxPos_command (s : State) (p : Nat) :
    (s.setRxPos p).command = s.command := rfl
@[simp] theorem State.setRxPos_pktLo (s : State) (p : Nat) :
    (s.setRxPos p).pktLo = s.pktLo := rfl
@[simp] theorem State.setRxPos_pktHi (s : State) (p : Nat) :
    (s.setRxPos p).pktHi = s.pktHi := rfl
@[simp] theorem State.setRxPos_cksum (s : State) (p : Nat) :
    (s.setRxPos p).cksum = s.cksum := rfl
@[simp] theorem State.setRxPos_rxDevice (s : State) (p : Nat) :
    (s.setRxPos p).rxDevice = s.rxDevice := rfl
@[simp] theorem State.setRxPos_rxChannel (s : State) (p : Nat) :
    (s.setRxPos p).rxChannel = s.rxChannel := rfl
@[simp] theorem State.setRxPos_rxCommand (s : State) (p : Nat) :
    (s.setRxPos p).rxCommand = s.rxCommand := rfl
@[simp] theorem State.setRxPos_rxLen (s : State) (p : Nat) :
    (s.setRxPos p).rxLen = s.rxLen := rfl
@[simp] theorem State.setRxPos_rxPos (s : State) (p : Nat) :
    (s.setRxPos p).rxPos = BitVec.ofNat 32 p := rfl
@[simp] theorem State.setRxPos_txCount (s : State) (p : Nat) :
    (s.setRxPos p).txCount = s.txCount := rfl
@[simp] theorem State.setRxPos_txHint (s : State) (p : Nat) :
    (s.setRxPos p).txHint = s.txHint := rfl
@[simp] theorem State.setRxPos_carrier (s : State) (p : Nat) :
    (s.setRxPos p).carrier = s.carrier := rfl
@[simp] theorem State.setRxPos_tol (s : State) (p : Nat) :
    (s.setRxPos p).tol = s.tol := rfl
@[simp] theorem State.setRxPos_txPkts (s : State) (p : Nat) :
    (s.setRxPos p).txPkts = s.txPkts := rfl
@[simp] theorem State.setRxPos_rxPkts (s : State) (p : Nat) :
    (s.setRxPos p).rxPkts = s.rxPkts := rfl
@[simp] theorem State.setRxPos_rxBad (s : State) (p : Nat) :
    (s.setRxPos p).rxBad = s.rxBad := rfl
@[simp] theorem State.setRxPos_rxSkips (s : State) (p : Nat) :
    (s.setRxPos p).rxSkips = s.rxSkips := rfl
@[simp] theorem State.setRxPos_rxNudges (s : State) (p : Nat) :
    (s.setRxPos p).rxNudges = s.rxNudges := rfl
@[simp] theorem State.setRxPos_mem (s : State) (p : Nat) :
    (s.setRxPos p).mem = s.mem := rfl
@[simp] theorem State.setRxPos_host (s : State) (p : Nat) :
    (s.setRxPos p).host = s.host := rfl
@[simp] theorem State.setRxPos_busData (s : State) (p : Nat) :
    (s.setRxPos p).busData = s.busData := rfl
@[simp] theorem State.setRxPos_powerOns (s : State) (p : Nat) :
    (s.setRxPos p).powerOns = s.powerOns := rfl

@[simp] theorem State.setCounters_cfg (s : State) (c : Scan) :
    (s.setCounters c).cfg = s.cfg := rfl
@[simp] theorem State.setCounters_valid (s : State) (c : Scan) :
    (s.setCounters c).valid = s.valid := rfl
@[simp] theorem State.setCounters_matched (s : State) (c : Scan) :
    (s.setCounters c).matched = s.matched := rfl
@[simp] theorem State.setCounters_busy (s : State) (c : Scan) :
    (s.setCounters c).busy = s.busy := rfl
@[simp] theorem State.setCounters_err (s : State) (c : Scan) :
    (s.setCounters c).err = s.err := rfl
@[simp] theorem State.setCounters_device (s : State) (c : Scan) :
    (s.setCounters c).device = s.device := rfl
@[simp] theorem State.setCounters_channel (s : State) (c : Scan) :
    (s.setCounters c).channel = s.channel := rfl
@[simp] theorem State.setCounters_command (s : State) (c : Scan) :
    (s.setCounters c).command = s.command := rfl
@[simp] theorem State.setCounters_pktLo (s : State) (c : Scan) :
    (s.setCounters c).pktLo = s.pktLo := rfl
@[simp] theorem State.setCounters_pktHi (s : State) (c : Scan) :
    (s.setCounters c).pktHi = s.pktHi := rfl
@[simp] theorem State.setCounters_cksum (s : State) (c : Scan) :
    (s.setCounters c).cksum = s.cksum := rfl
@[simp] theorem State.setCounters_rxDevice (s : State) (c : Scan) :
    (s.setCounters c).rxDevice = s.rxDevice := rfl
@[simp] theorem State.setCounters_rxChannel (s : State) (c : Scan) :
    (s.setCounters c).rxChannel = s.rxChannel := rfl
@[simp] theorem State.setCounters_rxCommand (s : State) (c : Scan) :
    (s.setCounters c).rxCommand = s.rxCommand := rfl
@[simp] theorem State.setCounters_rxLen (s : State) (c : Scan) :
    (s.setCounters c).rxLen = s.rxLen := rfl
@[simp] theorem State.setCounters_rxPos (s : State) (c : Scan) :
    (s.setCounters c).rxPos = s.rxPos := rfl
@[simp] theorem State.setCounters_txCount (s : State) (c : Scan) :
    (s.setCounters c).txCount = s.txCount := rfl
@[simp] theorem State.setCounters_txHint (s : State) (c : Scan) :
    (s.setCounters c).txHint = s.txHint := rfl
@[simp] theorem State.setCounters_carrier (s : State) (c : Scan) :
    (s.setCounters c).carrier = s.carrier := rfl
@[simp] theorem State.setCounters_tol (s : State) (c : Scan) :
    (s.setCounters c).tol = s.tol := rfl
@[simp] theorem State.setCounters_txPkts (s : State) (c : Scan) :
    (s.setCounters c).txPkts = s.txPkts := rfl
@[simp] theorem State.setCounters_rxPkts (s : State) (c : Scan) :
    (s.setCounters c).rxPkts = BitVec.ofNat 32 c.pkts := rfl
@[simp] theorem State.setCounters_rxBad (s : State) (c : Scan) :
    (s.setCounters c).rxBad = BitVec.ofNat 32 c.bad := rfl
@[simp] theorem State.setCounters_rxSkips (s : State) (c : Scan) :
    (s.setCounters c).rxSkips = BitVec.ofNat 32 c.skips := rfl
@[simp] theorem State.setCounters_rxNudges (s : State) (c : Scan) :
    (s.setCounters c).rxNudges = BitVec.ofNat 32 c.nudges := rfl
@[simp] theorem State.setCounters_mem (s : State) (c : Scan) :
    (s.setCounters c).mem = s.mem := rfl
@[simp] theorem State.setCounters_host (s : State) (c : Scan) :
    (s.setCounters c).host = s.host := rfl
@[simp] theorem State.setCounters_busData (s : State) (c : Scan) :
    (s.setCounters c).busData = s.busData := rfl
@[simp] theorem State.setCounters_powerOns (s : State) (c : Scan) :
    (s.setCounters c).powerOns = s.powerOns := rfl

@[simp] theorem State.beginFrame_cfg (s : State) (n : Nat) :
    (s.beginFrame n).cfg = s.cfg := rfl
@[simp] theorem State.beginFrame_valid (s : State) (n : Nat) :
    (s.beginFrame n).valid = s.valid := rfl
@[simp] theorem State.beginFrame_matched (s : State) (n : Nat) :
    (s.beginFrame n).matched = s.matched := rfl
@[simp] theorem State.beginFrame_busy (s : State) (n : Nat) :
    (s.beginFrame n).busy = s.busy := rfl
@[simp] theorem State.beginFrame_err (s : State) (n : Nat) :
    (s.beginFrame n).err = s.err := rfl
@[simp] theorem State.beginFrame_device (s : State) (n : Nat) :
    (s.beginFrame n).device = s.device := rfl
@[simp] theorem State.beginFrame_channel (s : State) (n : Nat) :
    (s.beginFrame n).channel = s.channel := rfl
@[simp] theorem State.beginFrame_command (s : State) (n : Nat) :
    (s.beginFrame n).command = s.command := rfl
@[simp] theorem State.beginFrame_pktLo (s : State) (n : Nat) :
    (s.beginFrame n).pktLo = s.pktLo := rfl
@[simp] theorem State.beginFrame_pktHi (s : State) (n : Nat) :
    (s.beginFrame n).pktHi = s.pktHi := rfl
@[simp] theorem State.beginFrame_cksum (s : State) (n : Nat) :
    (s.beginFrame n).cksum = s.cksum := rfl
@[simp] theorem State.beginFrame_rxDevice (s : State) (n : Nat) :
    (s.beginFrame n).rxDevice = s.rxDevice := rfl
@[simp] theorem State.beginFrame_rxChannel (s : State) (n : Nat) :
    (s.beginFrame n).rxChannel = s.rxChannel := rfl
@[simp] theorem State.beginFrame_rxCommand (s : State) (n : Nat) :
    (s.beginFrame n).rxCommand = s.rxCommand := rfl
@[simp] theorem State.beginFrame_rxLen (s : State) (n : Nat) :
    (s.beginFrame n).rxLen = s.rxLen := rfl
@[simp] theorem State.beginFrame_rxPos (s : State) (n : Nat) :
    (s.beginFrame n).rxPos = s.rxPos := rfl
@[simp] theorem State.beginFrame_txCount (s : State) (n : Nat) :
    (s.beginFrame n).txCount = 0#32 := rfl
@[simp] theorem State.beginFrame_txHint (s : State) (n : Nat) :
    (s.beginFrame n).txHint = BitVec.ofNat 32 n := rfl
@[simp] theorem State.beginFrame_carrier (s : State) (n : Nat) :
    (s.beginFrame n).carrier = carrierTx := rfl
@[simp] theorem State.beginFrame_tol (s : State) (n : Nat) :
    (s.beginFrame n).tol = s.tol := rfl
@[simp] theorem State.beginFrame_txPkts (s : State) (n : Nat) :
    (s.beginFrame n).txPkts = s.txPkts := rfl
@[simp] theorem State.beginFrame_rxPkts (s : State) (n : Nat) :
    (s.beginFrame n).rxPkts = s.rxPkts := rfl
@[simp] theorem State.beginFrame_rxBad (s : State) (n : Nat) :
    (s.beginFrame n).rxBad = s.rxBad := rfl
@[simp] theorem State.beginFrame_rxSkips (s : State) (n : Nat) :
    (s.beginFrame n).rxSkips = s.rxSkips := rfl
@[simp] theorem State.beginFrame_rxNudges (s : State) (n : Nat) :
    (s.beginFrame n).rxNudges = s.rxNudges := rfl
@[simp] theorem State.beginFrame_mem (s : State) (n : Nat) :
    (s.beginFrame n).mem = s.mem := rfl
@[simp] theorem State.beginFrame_host (s : State) (n : Nat) :
    (s.beginFrame n).host = s.host := rfl
@[simp] theorem State.beginFrame_busData (s : State) (n : Nat) :
    (s.beginFrame n).busData = s.busData := rfl
@[simp] theorem State.beginFrame_powerOns (s : State) (n : Nat) :
    (s.beginFrame n).powerOns = s.powerOns := rfl

@[simp] theorem State.storeRx_cfg (s : State) (i : Nat) (v : Word) :
    (s.storeRx i v).cfg = s.cfg := rfl
@[simp] theorem State.storeRx_valid (s : State) (i : Nat) (v : Word) :
    (s.storeRx i v).valid = s.valid := rfl
@[simp] theorem State.storeRx_matched (s : State) (i : Nat) (v : Word) :
    (s.storeRx i v).matched = s.matched := rfl
@[simp] theorem State.storeRx_busy (s : State) (i : Nat) (v : Word) :
    (s.storeRx i v).busy = s.busy := rfl
@[simp] theorem State.storeRx_err (s : State) (i : Nat) (v : Word) :
    (s.storeRx i v).err = s.err := rfl
@[simp] theorem State.storeRx_device (s : State) (i : Nat) (v : Word) :
    (s.storeRx i v).device = s.device := rfl
@[simp] theorem State.storeRx_channel (s : State) (i : Nat) (v : Word) :
    (s.storeRx i v).channel = s.channel := rfl
@[simp] theorem State.storeRx_command (s : State) (i : Nat) (v : Word) :
    (s.storeRx i v).command = s.command := rfl
@[simp] theorem State.storeRx_pktLo (s : State) (i : Nat) (v : Word) :
    (s.storeRx i v).pktLo = s.pktLo := rfl
@[simp] theorem State.storeRx_pktHi (s : State) (i : Nat) (v : Word) :
    (s.storeRx i v).pktHi = s.pktHi := rfl
@[simp] theorem State.storeRx_cksum (s : State) (i : Nat) (v : Word) :
    (s.storeRx i v).cksum = s.cksum := rfl
@[simp] theorem State.storeRx_rxDevice (s : State) (i : Nat) (v : Word) :
    (s.storeRx i v).rxDevice = s.rxDevice := rfl
@[simp] theorem State.storeRx_rxChannel (s : State) (i : Nat) (v : Word) :
    (s.storeRx i v).rxChannel = s.rxChannel := rfl
@[simp] theorem State.storeRx_rxCommand (s : State) (i : Nat) (v : Word) :
    (s.storeRx i v).rxCommand = s.rxCommand := rfl
@[simp] theorem State.storeRx_rxLen (s : State) (i : Nat) (v : Word) :
    (s.storeRx i v).rxLen = s.rxLen := rfl
@[simp] theorem State.storeRx_rxPos (s : State) (i : Nat) (v : Word) :
    (s.storeRx i v).rxPos = s.rxPos := rfl
@[simp] theorem State.storeRx_txCount (s : State) (i : Nat) (v : Word) :
    (s.storeRx i v).txCount = s.txCount := rfl
@[simp] theorem State.storeRx_txHint (s : State) (i : Nat) (v : Word) :
    (s.storeRx i v).txHint = s.txHint := rfl
@[simp] theorem State.storeRx_carrier (s : State) (i : Nat) (v : Word) :
    (s.storeRx i v).carrier = s.carrier := rfl
@[simp] theorem State.storeRx_tol (s : State) (i : Nat) (v : Word) :
    (s.storeRx i v).tol = s.tol := rfl
@[simp] theorem State.storeRx_txPkts (s : State) (i : Nat) (v : Word) :
    (s.storeRx i v).txPkts = s.txPkts := rfl
@[simp] theorem State.storeRx_rxPkts (s : State) (i : Nat) (v : Word) :
    (s.storeRx i v).rxPkts = s.rxPkts := rfl
@[simp] theorem State.storeRx_rxBad (s : State) (i : Nat) (v : Word) :
    (s.storeRx i v).rxBad = s.rxBad := rfl
@[simp] theorem State.storeRx_rxSkips (s : State) (i : Nat) (v : Word) :
    (s.storeRx i v).rxSkips = s.rxSkips := rfl
@[simp] theorem State.storeRx_rxNudges (s : State) (i : Nat) (v : Word) :
    (s.storeRx i v).rxNudges = s.rxNudges := rfl
@[simp] theorem State.storeRx_mem (s : State) (i : Nat) (v : Word) :
    (s.storeRx i v).mem = s.mem.storeWord (rxAddr i) v := rfl
@[simp] theorem State.storeRx_host (s : State) (i : Nat) (v : Word) :
    (s.storeRx i v).host = s.host := rfl
@[simp] theorem State.storeRx_busData (s : State) (i : Nat) (v : Word) :
    (s.storeRx i v).busData = s.busData := rfl
@[simp] theorem State.storeRx_powerOns (s : State) (i : Nat) (v : Word) :
    (s.storeRx i v).powerOns = s.powerOns := rfl

@[simp] theorem State.txAppend_cfg (s : State) (m sp : Word) :
    (s.txAppend m sp).cfg = s.cfg := rfl
@[simp] theorem State.txAppend_valid (s : State) (m sp : Word) :
    (s.txAppend m sp).valid = s.valid := rfl
@[simp] theorem State.txAppend_matched (s : State) (m sp : Word) :
    (s.txAppend m sp).matched = s.matched := rfl
@[simp] theorem State.txAppend_busy (s : State) (m sp : Word) :
    (s.txAppend m sp).busy = s.busy := rfl
@[simp] theorem State.txAppend_err (s : State) (m sp : Word) :
    (s.txAppend m sp).err = s.err := rfl
@[simp] theorem State.txAppend_device (s : State) (m sp : Word) :
    (s.txAppend m sp).device = s.device := rfl
@[simp] theorem State.txAppend_channel (s : State) (m sp : Word) :
    (s.txAppend m sp).channel = s.channel := rfl
@[simp] theorem State.txAppend_command (s : State) (m sp : Word) :
    (s.txAppend m sp).command = s.command := rfl
@[simp] theorem State.txAppend_pktLo (s : State) (m sp : Word) :
    (s.txAppend m sp).pktLo = s.pktLo := rfl
@[simp] theorem State.txAppend_pktHi (s : State) (m sp : Word) :
    (s.txAppend m sp).pktHi = s.pktHi := rfl
@[simp] theorem State.txAppend_cksum (s : State) (m sp : Word) :
    (s.txAppend m sp).cksum = s.cksum := rfl
@[simp] theorem State.txAppend_rxDevice (s : State) (m sp : Word) :
    (s.txAppend m sp).rxDevice = s.rxDevice := rfl
@[simp] theorem State.txAppend_rxChannel (s : State) (m sp : Word) :
    (s.txAppend m sp).rxChannel = s.rxChannel := rfl
@[simp] theorem State.txAppend_rxCommand (s : State) (m sp : Word) :
    (s.txAppend m sp).rxCommand = s.rxCommand := rfl
@[simp] theorem State.txAppend_rxLen (s : State) (m sp : Word) :
    (s.txAppend m sp).rxLen = s.rxLen := rfl
@[simp] theorem State.txAppend_rxPos (s : State) (m sp : Word) :
    (s.txAppend m sp).rxPos = s.rxPos := rfl
@[simp] theorem State.txAppend_txCount (s : State) (m sp : Word) :
    (s.txAppend m sp).txCount = s.txCount + 1#32 := rfl
@[simp] theorem State.txAppend_txHint (s : State) (m sp : Word) :
    (s.txAppend m sp).txHint = s.txHint := rfl
@[simp] theorem State.txAppend_carrier (s : State) (m sp : Word) :
    (s.txAppend m sp).carrier = s.carrier := rfl
@[simp] theorem State.txAppend_tol (s : State) (m sp : Word) :
    (s.txAppend m sp).tol = s.tol := rfl
@[simp] theorem State.txAppend_txPkts (s : State) (m sp : Word) :
    (s.txAppend m sp).txPkts = s.txPkts := rfl
@[simp] theorem State.txAppend_rxPkts (s : State) (m sp : Word) :
    (s.txAppend m sp).rxPkts = s.rxPkts := rfl
@[simp] theorem State.txAppend_rxBad (s : State) (m sp : Word) :
    (s.txAppend m sp).rxBad = s.rxBad := rfl
@[simp] theorem State.txAppend_rxSkips (s : State) (m sp : Word) :
    (s.txAppend m sp).rxSkips = s.rxSkips := rfl
@[simp] theorem State.txAppend_rxNudges (s : State) (m sp : Word) :
    (s.txAppend m sp).rxNudges = s.rxNudges := rfl
@[simp] theorem State.txAppend_mem (s : State) (m sp : Word) :
    (s.txAppend m sp).mem = (s.mem.storeWord (txMarkAddr s.txCount.toNat) m).storeWord (txSpaceAddr s.txCount.toNat) sp := rfl
@[simp] theorem State.txAppend_host (s : State) (m sp : Word) :
    (s.txAppend m sp).host = s.host := rfl
@[simp] theorem State.txAppend_busData (s : State) (m sp : Word) :
    (s.txAppend m sp).busData = s.busData := rfl
@[simp] theorem State.txAppend_powerOns (s : State) (m sp : Word) :
    (s.txAppend m sp).powerOns = s.powerOns := rfl

@[simp] theorem State.resetRegisters_cfg (s : State) :
    s.resetRegisters.cfg = s.cfg := rfl
@[simp] theorem State.resetRegisters_valid (s : State) :
    s.resetRegisters.valid = State.reset.valid := rfl
@[simp] theorem State.resetRegisters_matched (s : State) :
    s.resetRegisters.matched = State.reset.matched := rfl
@[simp] theorem State.resetRegisters_busy (s : State) :
    s.resetRegisters.busy = State.reset.busy := rfl
@[simp] theorem State.resetRegisters_err (s : State) :
    s.resetRegisters.err = State.reset.err := rfl
@[simp] theorem State.resetRegisters_device (s : State) :
    s.resetRegisters.device = State.reset.device := rfl
@[simp] theorem State.resetRegisters_channel (s : State) :
    s.resetRegisters.channel = State.reset.channel := rfl
@[simp] theorem State.resetRegisters_command (s : State) :
    s.resetRegisters.command = State.reset.command := rfl
@[simp] theorem State.resetRegisters_pktLo (s : State) :
    s.resetRegisters.pktLo = State.reset.pktLo := rfl
@[simp] theorem State.resetRegisters_pktHi (s : State) :
    s.resetRegisters.pktHi = State.reset.pktHi := rfl
@[simp] theorem State.resetRegisters_cksum (s : State) :
    s.resetRegisters.cksum = State.reset.cksum := rfl
@[simp] theorem State.resetRegisters_rxDevice (s : State) :
    s.resetRegisters.rxDevice = State.reset.rxDevice := rfl
@[simp] theorem State.resetRegisters_rxChannel (s : State) :
    s.resetRegisters.rxChannel = State.reset.rxChannel := rfl
@[simp] theorem State.resetRegisters_rxCommand (s : State) :
    s.resetRegisters.rxCommand = State.reset.rxCommand := rfl
@[simp] theorem State.resetRegisters_rxLen (s : State) :
    s.resetRegisters.rxLen = State.reset.rxLen := rfl
@[simp] theorem State.resetRegisters_rxPos (s : State) :
    s.resetRegisters.rxPos = State.reset.rxPos := rfl
@[simp] theorem State.resetRegisters_txCount (s : State) :
    s.resetRegisters.txCount = State.reset.txCount := rfl
@[simp] theorem State.resetRegisters_txHint (s : State) :
    s.resetRegisters.txHint = State.reset.txHint := rfl
@[simp] theorem State.resetRegisters_carrier (s : State) :
    s.resetRegisters.carrier = State.reset.carrier := rfl
@[simp] theorem State.resetRegisters_tol (s : State) :
    s.resetRegisters.tol = State.reset.tol := rfl
@[simp] theorem State.resetRegisters_txPkts (s : State) :
    s.resetRegisters.txPkts = State.reset.txPkts := rfl
@[simp] theorem State.resetRegisters_rxPkts (s : State) :
    s.resetRegisters.rxPkts = State.reset.rxPkts := rfl
@[simp] theorem State.resetRegisters_rxBad (s : State) :
    s.resetRegisters.rxBad = State.reset.rxBad := rfl
@[simp] theorem State.resetRegisters_rxSkips (s : State) :
    s.resetRegisters.rxSkips = State.reset.rxSkips := rfl
@[simp] theorem State.resetRegisters_rxNudges (s : State) :
    s.resetRegisters.rxNudges = State.reset.rxNudges := rfl
@[simp] theorem State.resetRegisters_mem (s : State) :
    s.resetRegisters.mem = s.mem := rfl
@[simp] theorem State.resetRegisters_host (s : State) :
    s.resetRegisters.host = s.host := rfl
@[simp] theorem State.resetRegisters_busData (s : State) :
    s.resetRegisters.busData = s.busData := rfl
@[simp] theorem State.resetRegisters_powerOns (s : State) :
    s.resetRegisters.powerOns = s.powerOns := rfl

@[simp] theorem State.powerOn_cfg (s : State) :
    s.powerOn.cfg = s.cfg := rfl
@[simp] theorem State.powerOn_valid (s : State) :
    s.powerOn.valid = State.reset.valid := rfl
@[simp] theorem State.powerOn_matched (s : State) :
    s.powerOn.matched = State.reset.matched := rfl
@[simp] theorem State.powerOn_busy (s : State) :
    s.powerOn.busy = State.reset.busy := rfl
@[simp] theorem State.powerOn_err (s : State) :
    s.powerOn.err = State.reset.err := rfl
@[simp] theorem State.powerOn_device (s : State) :
    s.powerOn.device = State.reset.device := rfl
@[simp] theorem State.powerOn_channel (s : State) :
    s.powerOn.channel = State.reset.channel := rfl
@[simp] theorem State.powerOn_command (s : State) :
    s.powerOn.command = State.reset.command := rfl
@[simp] theorem State.powerOn_pktLo (s : State) :
    s.powerOn.pktLo = State.reset.pktLo := rfl
@[simp] theorem State.powerOn_pktHi (s : State) :
    s.powerOn.pktHi = State.reset.pktHi := rfl
@[simp] theorem State.powerOn_cksum (s : State) :
    s.powerOn.cksum = State.reset.cksum := rfl
@[simp] theorem State.powerOn_rxDevice (s : State) :
    s.powerOn.rxDevice = State.reset.rxDevice := rfl
@[simp] theorem State.powerOn_rxChannel (s : State) :
    s.powerOn.rxChannel = State.reset.rxChannel := rfl
@[simp] theorem State.powerOn_rxCommand (s : State) :
    s.powerOn.rxCommand = State.reset.rxCommand := rfl
@[simp] theorem State.powerOn_rxLen (s : State) :
    s.powerOn.rxLen = State.reset.rxLen := rfl
@[simp] theorem State.powerOn_rxPos (s : State) :
    s.powerOn.rxPos = State.reset.rxPos := rfl
@[simp] theorem State.powerOn_txCount (s : State) :
    s.powerOn.txCount = State.reset.txCount := rfl
@[simp] theorem State.powerOn_txHint (s : State) :
    s.powerOn.txHint = State.reset.txHint := rfl
@[simp] theorem State.powerOn_carrier (s : State) :
    s.powerOn.carrier = State.reset.carrier := rfl
@[simp] theorem State.powerOn_tol (s : State) :
    s.powerOn.tol = State.reset.tol := rfl
@[simp] theorem State.powerOn_txPkts (s : State) :
    s.powerOn.txPkts = State.reset.txPkts := rfl
@[simp] theorem State.powerOn_rxPkts (s : State) :
    s.powerOn.rxPkts = State.reset.rxPkts := rfl
@[simp] theorem State.powerOn_rxBad (s : State) :
    s.powerOn.rxBad = State.reset.rxBad := rfl
@[simp] theorem State.powerOn_rxSkips (s : State) :
    s.powerOn.rxSkips = State.reset.rxSkips := rfl
@[simp] theorem State.powerOn_rxNudges (s : State) :
    s.powerOn.rxNudges = State.reset.rxNudges := rfl
@[simp] theorem State.powerOn_mem (s : State) :
    s.powerOn.mem = [] := rfl
@[simp] theorem State.powerOn_host (s : State) :
    s.powerOn.host = s.host := rfl
@[simp] theorem State.powerOn_busData (s : State) :
    s.powerOn.busData = none := rfl
@[simp] theorem State.powerOn_powerOns (s : State) :
    s.powerOn.powerOns = s.powerOns + 1 := rfl

/-! What `publish` leaves, by the result it publishes. -/
@[simp] theorem State.publish_ok_valid (s : State) (r : Record) :
    (s.publish (.ok r)).valid = true := rfl
@[simp] theorem State.publish_ok_err (s : State) (r : Record) :
    (s.publish (.ok r)).err = .none := rfl
@[simp] theorem State.publish_ok_rxDevice (s : State) (r : Record) :
    (s.publish (.ok r)).rxDevice = r.device := rfl
@[simp] theorem State.publish_ok_rxChannel (s : State) (r : Record) :
    (s.publish (.ok r)).rxChannel = r.channel := rfl
@[simp] theorem State.publish_ok_rxCommand (s : State) (r : Record) :
    (s.publish (.ok r)).rxCommand = r.command := rfl
@[simp] theorem State.publish_absent_valid (s : State) (c : ErrCode) :
    (s.publish (.absent c)).valid = false := rfl
@[simp] theorem State.publish_absent_err (s : State) (c : ErrCode) :
    (s.publish (.absent c)).err = c := rfl
@[simp] theorem State.publish_absent_rxDevice (s : State) (c : ErrCode) :
    (s.publish (.absent c)).rxDevice = 0#24 := rfl
@[simp] theorem State.publish_absent_rxChannel (s : State) (c : ErrCode) :
    (s.publish (.absent c)).rxChannel = 0#16 := rfl
@[simp] theorem State.publish_absent_rxCommand (s : State) (c : ErrCode) :
    (s.publish (.absent c)).rxCommand = 0#8 := rfl

@[simp] theorem State.publish_cfg (s : State) (p : Parse) : (s.publish p).cfg = s.cfg := by
  cases p <;> rfl
@[simp] theorem State.publish_matched (s : State) (p : Parse) : (s.publish p).matched = s.matched := by
  cases p <;> rfl
@[simp] theorem State.publish_busy (s : State) (p : Parse) : (s.publish p).busy = s.busy := by
  cases p <;> rfl
@[simp] theorem State.publish_device (s : State) (p : Parse) : (s.publish p).device = s.device := by
  cases p <;> rfl
@[simp] theorem State.publish_channel (s : State) (p : Parse) : (s.publish p).channel = s.channel := by
  cases p <;> rfl
@[simp] theorem State.publish_command (s : State) (p : Parse) : (s.publish p).command = s.command := by
  cases p <;> rfl
@[simp] theorem State.publish_pktLo (s : State) (p : Parse) : (s.publish p).pktLo = s.pktLo := by
  cases p <;> rfl
@[simp] theorem State.publish_pktHi (s : State) (p : Parse) : (s.publish p).pktHi = s.pktHi := by
  cases p <;> rfl
@[simp] theorem State.publish_cksum (s : State) (p : Parse) : (s.publish p).cksum = s.cksum := by
  cases p <;> rfl
@[simp] theorem State.publish_rxLen (s : State) (p : Parse) : (s.publish p).rxLen = s.rxLen := by
  cases p <;> rfl
@[simp] theorem State.publish_rxPos (s : State) (p : Parse) : (s.publish p).rxPos = s.rxPos := by
  cases p <;> rfl
@[simp] theorem State.publish_txCount (s : State) (p : Parse) : (s.publish p).txCount = s.txCount := by
  cases p <;> rfl
@[simp] theorem State.publish_txHint (s : State) (p : Parse) : (s.publish p).txHint = s.txHint := by
  cases p <;> rfl
@[simp] theorem State.publish_carrier (s : State) (p : Parse) : (s.publish p).carrier = s.carrier := by
  cases p <;> rfl
@[simp] theorem State.publish_tol (s : State) (p : Parse) : (s.publish p).tol = s.tol := by
  cases p <;> rfl
@[simp] theorem State.publish_txPkts (s : State) (p : Parse) : (s.publish p).txPkts = s.txPkts := by
  cases p <;> rfl
@[simp] theorem State.publish_rxPkts (s : State) (p : Parse) : (s.publish p).rxPkts = s.rxPkts := by
  cases p <;> rfl
@[simp] theorem State.publish_rxBad (s : State) (p : Parse) : (s.publish p).rxBad = s.rxBad := by
  cases p <;> rfl
@[simp] theorem State.publish_rxSkips (s : State) (p : Parse) : (s.publish p).rxSkips = s.rxSkips := by
  cases p <;> rfl
@[simp] theorem State.publish_rxNudges (s : State) (p : Parse) : (s.publish p).rxNudges = s.rxNudges := by
  cases p <;> rfl
@[simp] theorem State.publish_mem (s : State) (p : Parse) : (s.publish p).mem = s.mem := by
  cases p <;> rfl
@[simp] theorem State.publish_host (s : State) (p : Parse) : (s.publish p).host = s.host := by
  cases p <;> rfl
@[simp] theorem State.publish_busData (s : State) (p : Parse) : (s.publish p).busData = s.busData := by
  cases p <;> rfl
@[simp] theorem State.publish_powerOns (s : State) (p : Parse) : (s.publish p).powerOns = s.powerOns := by
  cases p <;> rfl

@[simp] theorem State.emitAll_cfg (ts : List Template) (s : State) : (s.emitAll ts).cfg = s.cfg := by
  induction ts generalizing s with
  | nil => rfl
  | cons t ts ih => exact ih (s.emitPair t)
@[simp] theorem State.emitAll_valid (ts : List Template) (s : State) : (s.emitAll ts).valid = s.valid := by
  induction ts generalizing s with
  | nil => rfl
  | cons t ts ih => exact ih (s.emitPair t)
@[simp] theorem State.emitAll_matched (ts : List Template) (s : State) : (s.emitAll ts).matched = s.matched := by
  induction ts generalizing s with
  | nil => rfl
  | cons t ts ih => exact ih (s.emitPair t)
@[simp] theorem State.emitAll_busy (ts : List Template) (s : State) : (s.emitAll ts).busy = s.busy := by
  induction ts generalizing s with
  | nil => rfl
  | cons t ts ih => exact ih (s.emitPair t)
@[simp] theorem State.emitAll_err (ts : List Template) (s : State) : (s.emitAll ts).err = s.err := by
  induction ts generalizing s with
  | nil => rfl
  | cons t ts ih => exact ih (s.emitPair t)
@[simp] theorem State.emitAll_device (ts : List Template) (s : State) : (s.emitAll ts).device = s.device := by
  induction ts generalizing s with
  | nil => rfl
  | cons t ts ih => exact ih (s.emitPair t)
@[simp] theorem State.emitAll_channel (ts : List Template) (s : State) : (s.emitAll ts).channel = s.channel := by
  induction ts generalizing s with
  | nil => rfl
  | cons t ts ih => exact ih (s.emitPair t)
@[simp] theorem State.emitAll_command (ts : List Template) (s : State) : (s.emitAll ts).command = s.command := by
  induction ts generalizing s with
  | nil => rfl
  | cons t ts ih => exact ih (s.emitPair t)
@[simp] theorem State.emitAll_pktLo (ts : List Template) (s : State) : (s.emitAll ts).pktLo = s.pktLo := by
  induction ts generalizing s with
  | nil => rfl
  | cons t ts ih => exact ih (s.emitPair t)
@[simp] theorem State.emitAll_pktHi (ts : List Template) (s : State) : (s.emitAll ts).pktHi = s.pktHi := by
  induction ts generalizing s with
  | nil => rfl
  | cons t ts ih => exact ih (s.emitPair t)
@[simp] theorem State.emitAll_cksum (ts : List Template) (s : State) : (s.emitAll ts).cksum = s.cksum := by
  induction ts generalizing s with
  | nil => rfl
  | cons t ts ih => exact ih (s.emitPair t)
@[simp] theorem State.emitAll_rxDevice (ts : List Template) (s : State) : (s.emitAll ts).rxDevice = s.rxDevice := by
  induction ts generalizing s with
  | nil => rfl
  | cons t ts ih => exact ih (s.emitPair t)
@[simp] theorem State.emitAll_rxChannel (ts : List Template) (s : State) : (s.emitAll ts).rxChannel = s.rxChannel := by
  induction ts generalizing s with
  | nil => rfl
  | cons t ts ih => exact ih (s.emitPair t)
@[simp] theorem State.emitAll_rxCommand (ts : List Template) (s : State) : (s.emitAll ts).rxCommand = s.rxCommand := by
  induction ts generalizing s with
  | nil => rfl
  | cons t ts ih => exact ih (s.emitPair t)
@[simp] theorem State.emitAll_rxLen (ts : List Template) (s : State) : (s.emitAll ts).rxLen = s.rxLen := by
  induction ts generalizing s with
  | nil => rfl
  | cons t ts ih => exact ih (s.emitPair t)
@[simp] theorem State.emitAll_rxPos (ts : List Template) (s : State) : (s.emitAll ts).rxPos = s.rxPos := by
  induction ts generalizing s with
  | nil => rfl
  | cons t ts ih => exact ih (s.emitPair t)
@[simp] theorem State.emitAll_txHint (ts : List Template) (s : State) : (s.emitAll ts).txHint = s.txHint := by
  induction ts generalizing s with
  | nil => rfl
  | cons t ts ih => exact ih (s.emitPair t)
@[simp] theorem State.emitAll_carrier (ts : List Template) (s : State) : (s.emitAll ts).carrier = s.carrier := by
  induction ts generalizing s with
  | nil => rfl
  | cons t ts ih => exact ih (s.emitPair t)
@[simp] theorem State.emitAll_tol (ts : List Template) (s : State) : (s.emitAll ts).tol = s.tol := by
  induction ts generalizing s with
  | nil => rfl
  | cons t ts ih => exact ih (s.emitPair t)
@[simp] theorem State.emitAll_txPkts (ts : List Template) (s : State) : (s.emitAll ts).txPkts = s.txPkts := by
  induction ts generalizing s with
  | nil => rfl
  | cons t ts ih => exact ih (s.emitPair t)
@[simp] theorem State.emitAll_rxPkts (ts : List Template) (s : State) : (s.emitAll ts).rxPkts = s.rxPkts := by
  induction ts generalizing s with
  | nil => rfl
  | cons t ts ih => exact ih (s.emitPair t)
@[simp] theorem State.emitAll_rxBad (ts : List Template) (s : State) : (s.emitAll ts).rxBad = s.rxBad := by
  induction ts generalizing s with
  | nil => rfl
  | cons t ts ih => exact ih (s.emitPair t)
@[simp] theorem State.emitAll_rxSkips (ts : List Template) (s : State) : (s.emitAll ts).rxSkips = s.rxSkips := by
  induction ts generalizing s with
  | nil => rfl
  | cons t ts ih => exact ih (s.emitPair t)
@[simp] theorem State.emitAll_rxNudges (ts : List Template) (s : State) : (s.emitAll ts).rxNudges = s.rxNudges := by
  induction ts generalizing s with
  | nil => rfl
  | cons t ts ih => exact ih (s.emitPair t)
@[simp] theorem State.emitAll_host (ts : List Template) (s : State) : (s.emitAll ts).host = s.host := by
  induction ts generalizing s with
  | nil => rfl
  | cons t ts ih => exact ih (s.emitPair t)
@[simp] theorem State.emitAll_busData (ts : List Template) (s : State) : (s.emitAll ts).busData = s.busData := by
  induction ts generalizing s with
  | nil => rfl
  | cons t ts ih => exact ih (s.emitPair t)
@[simp] theorem State.emitAll_powerOns (ts : List Template) (s : State) : (s.emitAll ts).powerOns = s.powerOns := by
  induction ts generalizing s with
  | nil => rfl
  | cons t ts ih => exact ih (s.emitPair t)

end Sys2Proof.Machine
end

