-- ==== Sys2Proof/Laws/Bus.lean ====
section
/-! SUPPORT. The window: which offsets are registers, which accesses have a step, and what a step is for each
kind of input. -/
namespace Sys2Proof.Machine

/-! ### Offsets -/

@[simp] theorem ofOffset_offset (r : Reg) : Reg.ofOffset r.offset = some r := by
  cases r <;> rfl

theorem offset_of_ofOffset {a : Nat} {r : Reg} (h : Reg.ofOffset a = some r) : a = r.offset := by
  unfold Reg.ofOffset at h
  split at h <;> first | (cases h; rfl) | cases h

theorem offset_lt (r : Reg) : r.offset < 0x58 ∧ r.offset % 4 = 0 := by
  cases r <;> decide

/-- No register stands above the register file (20_memory.md R61). -/
theorem ofOffset_none {a : Nat} (h : 0x58 ≤ a) : Reg.ofOffset a = none := by
  cases hr : Reg.ofOffset a with
  | none => rfl
  | some r =>
    have := offset_of_ofOffset hr
    have := offset_lt r
    omega

theorem rxIndex_none {c : Params} {a : Nat} (h : a < rxBase ∨ rxAddr c.rxCap ≤ a) : c.rxIndex a = none :=
  if_neg (by omega)

theorem txIndex_none {c : Params} {a : Nat} (h : a < txBase ∨ txMarkAddr c.txCap ≤ a) : c.txIndex a = none :=
  if_neg (by omega)

theorem rxIndex_rxAddr {c : Params} {i : Nat} (h : i < c.rxCap) : c.rxIndex (rxAddr i) = some i := by
  unfold Params.rxIndex
  rw [if_pos (by unfold rxAddr; omega)]
  congr 1
  unfold rxAddr
  omega

theorem txIndex_mark {c : Params} {j : Nat} (h : j < c.txCap) : c.txIndex (txMarkAddr j) = some j := by
  unfold Params.txIndex
  rw [if_pos (by unfold txMarkAddr; omega)]
  congr 1
  unfold txMarkAddr
  omega

theorem txIndex_space {c : Params} {j : Nat} (h : j < c.txCap) : c.txIndex (txSpaceAddr j) = some j := by
  unfold Params.txIndex
  rw [if_pos (by unfold txSpaceAddr txMarkAddr; omega)]
  congr 1
  unfold txSpaceAddr
  omega

/-! ### Accesses -/

/-- An aligned word access of a block that is not busy has a step. -/
theorem accessRefusal_none {s : State} {isRead : Bool} {addr : Nat} (hb : s.busy = false)
    (ha : addr % 4 = 0) : s.accessRefusal isRead addr 4 = none := by
  simp [State.accessRefusal, hb, ha]

/-- A step that serves a write. -/
theorem step_write {s : State} {rest : List HostOp} {addr : Nat} {v : Word}
    (h : s.host = .write addr 4 v :: rest) (hb : s.busy = false) (ha : addr % 4 = 0) :
    step s = ({ s with host := rest } : State).writeWindow (addr % 2 ^ 26) v := by
  unfold step
  rw [h]
  simp only [State.serve]
  rw [accessRefusal_none (by exact hb) ha]
  rfl

/-- A step that serves a read. -/
theorem step_read {s : State} {rest : List HostOp} {addr : Nat}
    (h : s.host = .read addr 4 :: rest) (hb : s.busy = false) (ha : addr % 4 = 0) :
    step s = .next { s with
      host := rest, busData := some (({ s with host := rest } : State).readWindow (addr % 2 ^ 26)) } := by
  unfold step
  rw [h]
  simp only [State.serve]
  rw [accessRefusal_none (by exact hb) ha]
  rfl

theorem step_powerOn {s : State} {rest : List HostOp} (h : s.host = .powerOnReset :: rest) :
    step s = .next ({ s with host := rest } : State).powerOn := by
  unfold step
  rw [h]
  rfl

theorem writeWindow_cmd (s : State) (v : Word) : s.writeWindow 0 v = s.runCommand v := rfl

theorem writeWindow_reg {s : State} {r : Reg} (v : Word) (h : r ≠ .cmd) :
    s.writeWindow r.offset v = .next (s.writeReg r v) := by
  cases r <;> first | rfl | exact absurd rfl h

theorem readWindow_reg (s : State) (r : Reg) : s.readWindow r.offset = s.readReg r := by
  cases r <;> rfl

/-- Everything a step can do: nothing, a power-on reset, a refused access, a read, or a write. -/
theorem step_cases (s : State) :
    (s.host = [] ∧ step s = .next s) ∨
    ∃ op rest, s.host = op :: rest ∧
      let u : State := { s with host := rest }
      ((op = .powerOnReset ∧ step s = .next u.powerOn) ∨
      (∃ r, step s = .refused r) ∨
      (∃ addr, op = .read addr 4 ∧ addr % 4 = 0 ∧
        step s = .next { u with busData := some (u.readWindow (addr % 2 ^ 26)) }) ∨
      (∃ addr v, op = .write addr 4 v ∧ addr % 4 = 0 ∧ step s = u.writeWindow (addr % 2 ^ 26) v)) := by
  have sized {b : Bool} {u : State} {addr size : Nat} (h : u.accessRefusal b addr size = none) :
      size = 4 ∧ addr % 4 = 0 := by
    unfold State.accessRefusal at h
    split at h
    · simp at h
    · split at h
      · simp at h
      · rename_i h
        omega
  cases hh : s.host with
  | nil => exact .inl ⟨rfl, by simp [step, hh]⟩
  | cons op rest =>
    refine .inr ⟨op, rest, rfl, ?_⟩
    cases op with
    | powerOnReset => exact .inl ⟨rfl, step_powerOn hh⟩
    | read addr size =>
      cases hr : ({ s with host := rest } : State).accessRefusal true addr size with
      | some r => exact .inr (.inl ⟨r, by simp [step, hh, State.serve, hr]⟩)
      | none =>
        obtain ⟨rfl, ha⟩ := sized hr
        refine .inr (.inr (.inl ⟨addr, rfl, ha, ?_⟩))
        simp [step, hh, State.serve, hr, windowOffset]
    | write addr size v =>
      cases hr : ({ s with host := rest } : State).accessRefusal false addr size with
      | some r => exact .inr (.inl ⟨r, by simp [step, hh, State.serve, hr]⟩)
      | none =>
        obtain ⟨rfl, ha⟩ := sized hr
        refine .inr (.inr (.inr ⟨addr, v, rfl, ha, ?_⟩))
        simp [step, hh, State.serve, hr, windowOffset]

/-- Everything a host write can do: run a command, set a register, store a sample, or nothing. -/
theorem writeWindow_cases (s : State) (a : Nat) (v : Word) :
    (a = 0 ∧ s.writeWindow a v = s.runCommand v) ∨
    (∃ r, r ≠ .cmd ∧ a = r.offset ∧ s.writeWindow a v = .next (s.writeReg r v)) ∨
    (∃ i, 0x58 ≤ a ∧ s.cfg.rxIndex a = some i ∧ s.writeWindow a v = .next (s.storeRx i v)) ∨
    (s.cfg.rxIndex a = none ∧ s.writeWindow a v = .next s) := by
  cases hr : Reg.ofOffset a with
  | some r =>
    have ha := offset_of_ofOffset hr
    by_cases hc : r = .cmd
    · subst hc
      exact .inl ⟨ha, by rw [ha]; rfl⟩
    · exact .inr (.inl ⟨r, hc, ha, by rw [ha]; exact writeWindow_reg v hc⟩)
  | none =>
    cases hi : s.cfg.rxIndex a with
    | some i =>
      refine .inr (.inr (.inl ⟨i, ?_, rfl, by simp [State.writeWindow, hr, hi]⟩))
      unfold Params.rxIndex rxBase at hi
      split at hi
      · omega
      · simp at hi
    | none => exact .inr (.inr (.inr ⟨rfl, by simp [State.writeWindow, hr, hi]⟩))

/-- Everything a CMD write can do: a command, or the reserved outcome. -/
theorem runCommand_cases (s : State) (w : Word) :
    (∃ i, decode w = .ok i ∧ s.runCommand w = exec i s) ∨
    (∃ e, decode w = .error e ∧ s.runCommand w = .next (s.finish .illegalCmd)) := by
  unfold State.runCommand
  cases h : decode w with
  | ok i => exact .inl ⟨i, rfl, rfl⟩
  | error e => exact .inr ⟨e, rfl, rfl⟩

end Sys2Proof.Machine
end

