-- ==== Sys2Proof/Laws/Emission.lean ====
section
/-! SUPPORT. What emitting a sequence of templates does: TX_COUNT, the stored pairs, every other byte, the
canonical form; and the lengths of the sequences of 41_modulator.md and 43_frame_sync.md. -/
namespace Sys2Proof.Machine

/-! ### Sequences -/

@[simp] theorem bitTemplates_length (p : PacketWord) (n : Nat) : (bitTemplates p n).length = n := by
  induction n with
  | zero => rfl
  | succ n ih => simp [bitTemplates, ih]

/-- Entry k of the bit pairs is bit n − 1 − k. -/
theorem bitTemplates_getElem? (p : PacketWord) (n k : Nat) (h : k < n) :
    (bitTemplates p n)[k]? = some (bitTemplate p (n - 1 - k)) := by
  induction n generalizing k with
  | zero => omega
  | succ n ih =>
    cases k with
    | zero => simp [bitTemplates]
    | succ k =>
      rw [bitTemplates, List.getElem?_cons_succ, ih k (by omega)]
      congr 2
      omega

@[simp] theorem pulseSeq_length (p : PacketWord) : (pulseSeq p).length = 66 := by
  simp [pulseSeq, pktBits]

@[simp] theorem blockSeq_length (p : PacketWord) (n : Nat) : (blockSeq p n).length = 66 * n := by
  induction n with
  | zero => rfl
  | succ n ih =>
    simp only [blockSeq, List.length_append, pulseSeq_length, ih]
    omega

theorem frameSeq_length (c : Params) (r : Record) :
    (frameSeq c r).length = framePairs (c.blocks r.command) := by
  unfold frameSeq Params.blocks framePairs
  rw [List.length_append, List.length_append, List.length_append, List.length_replicate,
    List.length_replicate, blockSeq_length]
  split
  · rw [blockSeq_length]
    rfl
  · rfl

@[simp] theorem render_length (ts : List Template) : (render ts).length = 2 * ts.length := by
  induction ts with
  | nil => rfl
  | cons t ts ih =>
    simp only [render, List.length_cons, ih]
    omega

/-! ### Emission -/

theorem emitAll_append (ts us : List Template) (s : State) :
    s.emitAll (ts ++ us) = (s.emitAll ts).emitAll us := by
  induction ts generalizing s with
  | nil => rfl
  | cons t ts ih => exact ih (s.emitPair t)

/-- A repeat block emits its packet sequence that many times. -/
theorem emitBlock_eq (s : State) (p : PacketWord) (n : Nat) :
    s.emitBlock p n = s.emitAll (blockSeq p n) := by
  induction n generalizing s with
  | zero => rfl
  | succ n ih => simp only [State.emitBlock, blockSeq, emitAll_append, State.emitPacket, ih]

/-- TX_FRAME's emission is the sequence Frame(d, c, k). -/
theorem emitFrame_eq (s : State) (r : Record) : s.emitFrame r = s.emitAll (frameSeq s.cfg r) := by
  unfold State.emitFrame frameSeq
  simp only [emitBlock_eq, emitAll_append]
  by_cases h : s.cfg.hasRelease r.command = true
  · simp [h]
  · simp [h, State.emitAll]

/-- TX_COUNT counts the emitted pairs, while it does not wrap. -/
theorem emitAll_txCount (ts : List Template) (s : State) (h : s.txCount.toNat + ts.length < 2 ^ 32) :
    (s.emitAll ts).txCount.toNat = s.txCount.toNat + ts.length := by
  induction ts generalizing s with
  | nil => rfl
  | cons t ts ih =>
    have e : (s.emitPair t).txCount.toNat = s.txCount.toNat + 1 := by
      simp only [List.length_cons] at h
      show (s.txCount + 1#32).toNat = _
      rw [BitVec.toNat_add]
      simp
      omega
    rw [State.emitAll, ih _ (by rw [e]; simp at h; omega), e]
    simp
    omega

/-- Every byte outside the new entries reads as before. -/
theorem readByte_emitAll_of_outside (ts : List Template) (s : State) (x : Nat)
    (hc : s.txCount.toNat + ts.length < 2 ^ 32)
    (h : x < txMarkAddr s.txCount.toNat ∨ txMarkAddr (s.txCount.toNat + ts.length) ≤ x) :
    (s.emitAll ts).mem.readByte x = s.mem.readByte x := by
  induction ts generalizing s with
  | nil => rfl
  | cons t ts ih =>
    simp only [List.length_cons] at hc h
    have e : (s.emitPair t).txCount.toNat = s.txCount.toNat + 1 := emitAll_txCount [t] s (by simp; omega)
    rw [State.emitAll, ih _ (by omega) (by rw [e]; unfold txMarkAddr at *; omega)]
    exact readByte_txAppend_of_outside (by unfold txMarkAddr at *; omega)

theorem txStored_emitAll_of_outside (ts : List Template) (s : State) (j : Nat)
    (hc : s.txCount.toNat + ts.length < 2 ^ 32)
    (h : j < s.txCount.toNat ∨ s.txCount.toNat + ts.length ≤ j) :
    (s.emitAll ts).txStored j = s.txStored j := by
  have r (x : Nat) (hx : txMarkAddr j ≤ x ∧ x < txMarkAddr j + 8) :
      (s.emitAll ts).mem.readByte x = s.mem.readByte x :=
    readByte_emitAll_of_outside ts s x hc (by unfold txMarkAddr at *; omega)
  have e : txSpaceAddr j = txMarkAddr j + 4 := rfl
  unfold State.txStored Memory.readWord
  rw [e]
  simp only [Nat.add_assoc]
  rw [r _ (by omega), r _ (by omega), r _ (by omega), r _ (by omega), r _ (by omega), r _ (by omega),
    r _ (by omega), r _ (by omega)]

/-- The new entries hold the templates' constants, in order. -/
theorem txStored_emitAll (ts : List Template) (s : State) (i : Nat) (t : Template)
    (hc : s.txCount.toNat + ts.length < 2 ^ 32) (h : ts[i]? = some t) :
    (s.emitAll ts).txStored (s.txCount.toNat + i) = some (templatePair t) := by
  induction ts generalizing s i with
  | nil => simp at h
  | cons u ts ih =>
    simp only [List.length_cons] at hc
    have e : (s.emitPair u).txCount.toNat = s.txCount.toNat + 1 := emitAll_txCount [u] s (by simp; omega)
    cases i with
    | zero =>
      simp only [List.getElem?_cons_zero, Option.some.injEq] at h
      subst h
      rw [State.emitAll, txStored_emitAll_of_outside ts _ _ (by omega) (by omega)]
      exact txStored_txAppend s _ _
    | succ i =>
      rw [List.getElem?_cons_succ] at h
      rw [State.emitAll, ← ih (s.emitPair u) i (by omega) h]
      congr 1
      omega

theorem emitAll_wf (ts : List Template) (s : State) (h : Memory.wf s.mem) : Memory.wf (s.emitAll ts).mem := by
  induction ts generalizing s with
  | nil => exact h
  | cons t ts ih => exact ih (s.emitPair t) (storeWord_wf (storeWord_wf h _ _) _ _)

/-- A cell after an emission was there before, or lies in a new entry. -/
theorem mem_emitAll (ts : List Template) (s : State) (hc : s.txCount.toNat + ts.length < 2 ^ 32)
    {c : Host.Cell} (h : c ∈ (s.emitAll ts).mem) :
    c ∈ s.mem ∨ (txMarkAddr s.txCount.toNat ≤ c.1 ∧ c.1 < txMarkAddr (s.txCount.toNat + ts.length)) := by
  induction ts generalizing s with
  | nil => exact .inl h
  | cons t ts ih =>
    simp only [List.length_cons] at hc ⊢
    have e : (s.emitPair t).txCount.toNat = s.txCount.toNat + 1 := emitAll_txCount [t] s (by simp; omega)
    rcases ih (s.emitPair t) (by omega) h with h | h
    · rcases mem_storeWord h with h | h
      · rcases mem_storeWord h with h | h
        · exact .inl h
        · right
          unfold txMarkAddr at *
          omega
      · right
        unfold txMarkAddr txSpaceAddr at *
        omega
    · right
      unfold txMarkAddr at *
      omega

/-- A command's emission leaves every sample of RXMEM as it was. -/
theorem rxWord_emitAll (ts : List Template) (s : State) (i : Nat)
    (hc : s.txCount.toNat + ts.length < 2 ^ 32) (h : i < 2 ^ 22) :
    (s.emitAll ts).rxWord i = s.rxWord i :=
  rxWord_eq_of_readByte fun x _ hx =>
    readByte_emitAll_of_outside ts s x hc
      (by unfold rxAddr rxBase at hx; unfold txMarkAddr txBase; omega)

end Sys2Proof.Machine
end

