-- ==== Sys2Proof/Laws/PerInstr.lean ====
section
/-! SUPPORT. One lemma per command: the word the encoder writes carries the command's own opcode of
30_encoding.md R84 at w[7:0] (R82), and that opcode is not a reserved one (R85). -/
namespace Sys2Proof.Laws.OpcodeField

/-- The reserved opcodes (30_encoding.md R85). -/
abbrev reserved (op : BitVec 8) : Prop :=
  op = 0x0C#8 ∨ op = 0x0D#8 ∨ op = 0x0E#8 ∨ 0x10 ≤ op.toNat

theorem opField_encodeN (op : BitVec 8) : opField (encodeN op) = op := by
  apply BitVec.eq_of_getLsbD_eq
  intro i hi
  simp only [opField, encodeN, BitVec.getLsbD_extractLsb', BitVec.getLsbD_append]
  simp [hi]

theorem opField_encodeM (op : BitVec 8) (t : Template) (off : Nat) : opField (encodeM op t off) = op := by
  apply BitVec.eq_of_getLsbD_eq
  intro i hi
  simp only [opField, encodeM, BitVec.getLsbD_extractLsb', BitVec.getLsbD_append]
  simp [hi]

theorem opField_encodeA (op : BitVec 8) (n : Nat) : opField (encodeA op n) = op := by
  apply BitVec.eq_of_getLsbD_eq
  intro i hi
  simp only [opField, encodeA, BitVec.getLsbD_extractLsb', BitVec.getLsbD_append]
  simp [hi]

/-- The encoded word carries the command's opcode, which is not reserved. -/
def Statement (i : Instr) : Prop := opField (encode i) = i.opcode ∧ ¬ reserved i.opcode

theorem nop : Statement .nop := ⟨opField_encodeN _, by decide⟩
theorem cksum : Statement .cksum := ⟨opField_encodeN _, by decide⟩
theorem pack : Statement .pack := ⟨opField_encodeN _, by decide⟩
theorem unpack : Statement .unpack := ⟨opField_encodeN _, by decide⟩
theorem txClear : Statement .txClear := ⟨opField_encodeN _, by decide⟩
theorem emitPkt : Statement .emitPkt := ⟨opField_encodeN _, by decide⟩
theorem txFrame : Statement .txFrame := ⟨opField_encodeN _, by decide⟩
theorem rxMatch (t : Template) (off : Nat) : Statement (.rxMatch t off) :=
  ⟨opField_encodeM _ _ _, by simp [Instr.opcode]⟩
theorem rxExpect (t : Template) : Statement (.rxExpect t) :=
  ⟨opField_encodeM _ _ _, by simp [Instr.opcode]⟩
theorem rxAdvance (n : Nat) : Statement (.rxAdvance n) :=
  ⟨opField_encodeA _ _, by simp [Instr.opcode]⟩
theorem rxPkt : Statement .rxPkt := ⟨opField_encodeN _, by decide⟩
theorem rxFrame : Statement .rxFrame := ⟨opField_encodeN _, by decide⟩
theorem softReset : Statement .softReset := ⟨opField_encodeN _, by decide⟩

end Sys2Proof.Laws.OpcodeField
end

