-- ==== Sys2Proof/Laws/Reception.lean ====
section
/-! SUPPORT. What the matcher, the parser and the scan can answer: when they complete, when they fault, and
where they stop. -/
namespace Sys2Proof.Machine

/-! ### Samples and matches -/

theorem readSample_ok {s : State} {i : Nat} {v : Int} :
    s.readSample i = .ok v ↔ ∃ w, s.rxWord i = some w ∧ w.toInt = v := by
  unfold State.readSample
  cases s.rxWord i <;> simp

theorem readSample_error {s : State} {i : Nat} {f : Fault} :
    s.readSample i = .error f ↔ s.rxWord i = none ∧ f = .unwrittenSample i := by
  unfold State.readSample
  cases h : s.rxWord i <;> simp [eq_comm]

/-- Everything MarkMatch can answer. -/
theorem markMatch_cases (s : State) (i d : Nat) :
    (s.rxLen.toNat ≤ i ∧ s.markMatch i d = .ok false) ∨
    (i < s.rxLen.toNat ∧ s.rxWord i = none ∧ s.markMatch i d = .error (.unwrittenSample i)) ∨
    (i < s.rxLen.toNat ∧ ∃ w, s.rxWord i = some w ∧ s.markMatch i d = .ok (inWindow s.tol d w.toInt)) := by
  unfold State.markMatch State.readSample
  by_cases h : i < s.rxLen.toNat
  · cases hw : s.rxWord i <;> simp [h]
  · simp [h]
    omega

/-- Everything SpaceMatch can answer. -/
theorem spaceMatch_cases (s : State) (i d : Nat) :
    (s.rxLen.toNat ≤ i ∧ s.spaceMatch i d = .ok false) ∨
    (i < s.rxLen.toNat ∧ s.rxWord i = none ∧ s.spaceMatch i d = .error (.unwrittenSample i)) ∨
    (i < s.rxLen.toNat ∧ ∃ w, s.rxWord i = some w ∧
      s.spaceMatch i d = .ok (inWindow s.tol d (-w.toInt))) := by
  unfold State.spaceMatch State.readSample
  by_cases h : i < s.rxLen.toNat
  · cases hw : s.rxWord i <;> simp [h]
  · simp [h]
    omega

/-! ### What a match answers, in the terms the statements use -/

theorem inWindow_iff {t : BitVec 7} {d : Nat} {v : Int} : inWindow t d v = true ↔
    0 ≤ v ∧ (100 - (t.toNat : Int)) * d / 100 ≤ v ∧ v ≤ (100 + (t.toNat : Int)) * d / 100 :=
  decide_eq_true_iff

/-- A match faults exactly where it reads a sample of the stream that was never written. -/
theorem pairMatch_error_iff {s : State} {t : Template} {p i : Nat} :
    s.pairMatch t p = .error (.unwrittenSample i) ↔ s.pairFaultsAt t p i := by
  unfold State.pairMatch State.pairFaultsAt State.markInWindow
  rcases markMatch_cases s p (markOf t) with ⟨hp, e⟩ | ⟨hp, hn, e⟩ | ⟨hp, m, hm, e⟩
  · simp only [e, reduceCtorEq, false_iff]
    omega
  · simp only [e, Except.error.injEq, Fault.unwrittenSample.injEq, hn, reduceCtorEq, false_and, exists_false,
      and_false, or_false]
    exact ⟨fun h => h ▸ ⟨hp, by simp [State.rxw, hn], rfl⟩, fun h => h.2.2.symm⟩
  · simp only [e, hm, Option.some.injEq, exists_eq_left', ← inWindow_iff]
    have hw : s.rxw p = true := by simp [State.rxw, hm]
    cases inWindow s.tol (markOf t) m.toInt
    · simp only [reduceCtorEq, Bool.false_eq_true, and_false, or_false, false_iff]
      rintro ⟨_, h, rfl⟩
      simp [hw] at h
    · rcases spaceMatch_cases s (p + 1) (spaceOf t) with ⟨hq, e⟩ | ⟨hq, hn, e⟩ | ⟨hq, v, hv, e⟩
      · simp only [e, reduceCtorEq, false_iff]
        rintro ⟨h, hr, rfl | ⟨rfl, _⟩⟩
        · simp [hw] at hr
        · omega
      · simp only [e, Except.error.injEq, Fault.unwrittenSample.injEq, and_true]
        refine ⟨fun h => h ▸ ⟨hq, by simp [State.rxw, hn], .inr rfl⟩, ?_⟩
        rintro ⟨_, hr, rfl | rfl⟩
        · simp [hw] at hr
        · rfl
      · simp only [e, reduceCtorEq, false_iff]
        rintro ⟨_, hr, rfl | ⟨rfl, _⟩⟩
        · simp [hw] at hr
        · simp [State.rxw, hv] at hr

/-- A match holds exactly of a pair that lies in the stream and in the windows. -/
theorem pairMatch_true_iff {s : State} {t : Template} {p : Nat} :
    s.pairMatch t p = .ok true ↔ s.pairInWindow t p := by
  unfold State.pairMatch State.pairInWindow
  rcases markMatch_cases s p (markOf t) with ⟨hp, e⟩ | ⟨hp, hn, e⟩ | ⟨hp, m, hm, e⟩
  · simp only [e, Except.ok.injEq, Bool.false_eq_true, false_iff]
    omega
  · simp [e, hn]
  · simp only [e, hm, Option.some.injEq]
    rcases spaceMatch_cases s (p + 1) (spaceOf t) with ⟨hq, e⟩ | ⟨hq, hn, e⟩ | ⟨hq, v, hv, e⟩
    · cases inWindow s.tol (markOf t) m.toInt <;> simp [e] <;> omega
    · cases inWindow s.tol (markOf t) m.toInt <;> simp [e, hn]
    · simp only [hv, Option.some.injEq, exists_and_left, exists_eq_left', hq, true_and, e]
      rw [show (v.toInt ≤ 0) = (0 ≤ -v.toInt) by simp only [eq_iff_iff]; omega, ← inWindow_iff, ← and_assoc,
        ← and_assoc, and_assoc (a := 0 ≤ m.toInt), ← inWindow_iff]
      cases inWindow s.tol (markOf t) m.toInt <;> simp

/-- A match completes without holding exactly where the pair misses. -/
theorem pairMatch_false_iff {s : State} {t : Template} {p : Nat} :
    s.pairMatch t p = .ok false ↔ s.pairMisses t p := by
  unfold State.pairMisses
  simp only [← pairMatch_true_iff, ← pairMatch_error_iff]
  rcases hm : s.pairMatch t p with ⟨⟨i⟩⟩ | ⟨_ | _⟩ <;> simp

/-- A match holds only of a pair that lies inside the stream. -/
theorem pairMatch_true_lt {s : State} {t : Template} {p : Nat} (h : s.pairMatch t p = .ok true) :
    p + 1 < s.rxLen.toNat := (pairMatch_true_iff.1 h).1

/-- A match faults only on a sample of the stream that was never written. -/
theorem pairMatch_error {s : State} {t : Template} {p : Nat} {f : Fault} (h : s.pairMatch t p = .error f) :
    ∃ i, f = .unwrittenSample i ∧ (i = p ∨ i = p + 1) ∧ i < s.rxLen.toNat ∧ s.rxw i = false := by
  obtain ⟨i⟩ := f
  obtain ⟨h1, h2, h3⟩ := pairMatch_error_iff.1 h
  exact ⟨i, rfl, h3.imp_right And.left, h1, h2⟩

/-- A match on a written stream completes. -/
theorem pairMatch_completes {s : State} (hs : s.streamWritten) (t : Template) (p : Nat) :
    ∃ b, s.pairMatch t p = .ok b := by
  cases hm : s.pairMatch t p with
  | ok b => exact ⟨b, rfl⟩
  | error f =>
    obtain ⟨i, _, _, h1, h2⟩ := pairMatch_error hm
    exact absurd (hs i h1) (by simp [h2])

/-! ### Bits and packets -/

/-- Where the bit loop stops: after all its bits, or at the first pair that is no bit, having consumed only
pairs inside the stream. -/
theorem decodeBits_stops {s : State} {n p q : Nat} {acc : PacketWord} {r : Option PacketWord}
    (h : s.decodeBits n p acc = .ok (r, q)) :
    (r.isSome = true → q = p + 2 * n) ∧ (r = none → ∃ k < n, q = p + 2 * k) ∧
      (q = p ∨ q ≤ s.rxLen.toNat) := by
  induction n generalizing p acc with
  | zero =>
    simp only [State.decodeBits, Except.ok.injEq, Prod.mk.injEq] at h
    obtain ⟨rfl, rfl⟩ := h
    simp
  | succ n ih =>
    have step {acc' : PacketWord} (t : Template) (hp : s.pairMatch t p = .ok true)
        (h : s.decodeBits n (p + 2) acc' = .ok (r, q)) :
        (r.isSome = true → q = p + 2 * (n + 1)) ∧ (r = none → ∃ k < n + 1, q = p + 2 * k) ∧
          (q = p ∨ q ≤ s.rxLen.toNat) := by
      have hlt := pairMatch_true_lt hp
      obtain ⟨h1, h2, h3⟩ := ih h
      refine ⟨fun hr => by have := h1 hr; omega, fun hr => ?_, by omega⟩
      obtain ⟨k, hk, e⟩ := h2 hr
      exact ⟨k + 1, by omega, by omega⟩
    rw [State.decodeBits] at h
    split at h
    · simp at h
    · exact step .one ‹_› h
    · split at h
      · simp at h
      · exact step .zero ‹_› h
      · simp only [Except.ok.injEq, Prod.mk.injEq] at h
        obtain ⟨rfl, rfl⟩ := h
        exact ⟨by simp, fun _ => ⟨0, by omega, by omega⟩, .inl rfl⟩

/-- Bit pairs that match are consumed one by one: after m of them the loop stands at the pair after the last. -/
theorem decodeBits_after {s : State} {m n p : Nat} {acc : PacketWord} (hn : m ≤ n)
    (h : ∀ k, k < m → s.pairInWindow .one (p + 2 * k) ∨
      (s.pairMisses .one (p + 2 * k) ∧ s.pairInWindow .zero (p + 2 * k))) :
    ∃ acc', s.decodeBits n p acc = s.decodeBits (n - m) (p + 2 * m) acc' := by
  induction m generalizing n p acc with
  | zero => exact ⟨acc, rfl⟩
  | succ m ih =>
    obtain ⟨n, rfl⟩ : ∃ k, n = k + 1 := ⟨n - 1, by omega⟩
    have ih {acc : PacketWord} := ih (n := n) (p := p + 2) (acc := acc) (by omega) (fun k hk => by
      have := h (k + 1) (by omega)
      rwa [show p + 2 * (k + 1) = p + 2 + 2 * k by omega] at this)
    have h0 := h 0 (by omega)
    simp only [Nat.mul_zero, Nat.add_zero, ← pairMatch_true_iff, ← pairMatch_false_iff] at h0
    rw [State.decodeBits, Nat.add_sub_add_right, show p + 2 * (m + 1) = p + 2 + 2 * m by omega]
    rcases h0 with h0 | ⟨h0, h1⟩
    · simp only [h0]
      exact ih
    · simp only [h0, h1]
      exact ih

theorem decodeBits_completes {s : State} (hs : s.streamWritten) (n p : Nat) (acc : PacketWord) :
    ∃ r, s.decodeBits n p acc = .ok r := by
  induction n generalizing p acc with
  | zero => exact ⟨_, rfl⟩
  | succ n ih =>
    rw [State.decodeBits]
    obtain ⟨b, hb⟩ := pairMatch_completes hs .one p
    rw [hb]
    cases b
    · obtain ⟨b, hb⟩ := pairMatch_completes hs .zero p
      rw [hb]
      cases b
      · exact ⟨_, rfl⟩
      · exact ih _ _
    · exact ih _ _

theorem decodeBits_error {s : State} {n p : Nat} {acc : PacketWord} {f : Fault}
    (h : s.decodeBits n p acc = .error f) :
    ∃ i, f = .unwrittenSample i ∧ i < s.rxLen.toNat ∧ s.rxw i = false := by
  induction n generalizing p acc with
  | zero => simp [State.decodeBits] at h
  | succ n ih =>
    have back {t : Template} {g : Fault} (hm : s.pairMatch t p = .error g) (e : g = f) :
        ∃ i, f = .unwrittenSample i ∧ i < s.rxLen.toNat ∧ s.rxw i = false := by
      obtain ⟨i, hi, _, h1, h2⟩ := pairMatch_error hm
      exact ⟨i, e ▸ hi, h1, h2⟩
    rw [State.decodeBits] at h
    split at h
    · exact back ‹_› (by simpa using h)
    · exact ih h
    · split at h
      · exact back ‹_› (by simpa using h)
      · exact ih h
      · simp at h

theorem decodeEnd_completes {s : State} (hs : s.streamWritten) (p : Nat) (acc : PacketWord) :
    ∃ r, s.decodeEnd p acc = .ok r := by
  unfold State.decodeEnd
  obtain ⟨b, hb⟩ := pairMatch_completes hs .pktSuffix p
  rw [hb]
  cases b <;> exact ⟨_, rfl⟩

/-- The suffix step consumes its pair only if it lies inside the stream. -/
theorem decodeEnd_stops {s : State} {p q : Nat} {acc : PacketWord} {r : Parse}
    (h : s.decodeEnd p acc = .ok (r, q)) :
    (q = p ∧ r = .absent .noSuffix) ∨ (q = p + 2 ∧ r = validate acc ∧ q ≤ s.rxLen.toNat) := by
  unfold State.decodeEnd at h
  split at h
  · simp at h
  · have := pairMatch_true_lt ‹_›
    simp only [Except.ok.injEq, Prod.mk.injEq] at h
    exact .inr ⟨h.2.symm, h.1.symm, by omega⟩
  · simp only [Except.ok.injEq, Prod.mk.injEq] at h
    exact .inl ⟨h.2.symm, h.1.symm⟩

theorem decodePacket_completes {s : State} (hs : s.streamWritten) (p : Nat) :
    ∃ r, s.decodePacket p = .ok r := by
  unfold State.decodePacket
  obtain ⟨b, hb⟩ := pairMatch_completes hs .pktPrefix p
  rw [hb]
  cases b
  · exact ⟨_, rfl⟩
  · obtain ⟨⟨r, q⟩, hr⟩ := decodeBits_completes hs pktBits (p + 2) 0#64
    simp only [hr]
    cases r
    · exact ⟨_, rfl⟩
    · exact decodeEnd_completes hs _ _

theorem decodePacket_error {s : State} {p : Nat} {f : Fault} (h : s.decodePacket p = .error f) :
    ∃ i, f = .unwrittenSample i ∧ i < s.rxLen.toNat ∧ s.rxw i = false := by
  have ofMatch {t : Template} {q : Nat} {g : Fault} (hm : s.pairMatch t q = .error g) (e : g = f) :
      ∃ i, f = .unwrittenSample i ∧ i < s.rxLen.toNat ∧ s.rxw i = false := by
    obtain ⟨i, hi, _, h1, h2⟩ := pairMatch_error hm
    exact ⟨i, e ▸ hi, h1, h2⟩
  unfold State.decodePacket at h
  split at h
  · exact ofMatch ‹_› (by simpa using h)
  · simp at h
  · split at h
    · obtain ⟨i, hi, h12⟩ := decodeBits_error ‹_›
      exact ⟨i, by simpa [hi] using h.symm, h12⟩
    · simp at h
    · unfold State.decodeEnd at h
      split at h
      · exact ofMatch ‹_› (by simpa using h)
      · simp at h
      · simp at h

/-- A packet attempt whose prefix matched moves the cursor by at least a pair and stays in the stream. -/
theorem decodePacket_progress {s : State} {p q : Nat} {r : Parse} (hp : s.pairMatch .pktPrefix p = .ok true)
    (h : s.decodePacket p = .ok (r, q)) : p + 2 ≤ q ∧ q ≤ s.rxLen.toNat := by
  have hlt := pairMatch_true_lt hp
  unfold State.decodePacket at h
  rw [hp] at h
  simp only at h
  split at h
  · simp at h
  · obtain ⟨_, h2, h3⟩ := decodeBits_stops ‹_›
    obtain ⟨k, _, e⟩ := h2 rfl
    simp only [Except.ok.injEq, Prod.mk.injEq] at h
    omega
  · obtain ⟨h1, _, h3⟩ := decodeBits_stops ‹_›
    have e := h1 rfl
    rcases decodeEnd_stops h with ⟨rfl, _⟩ | ⟨rfl, _, h4⟩ <;> omega

/-! ### The scan -/

/-- Everything a scan step can do (43_frame_sync.md R199, R200). -/
theorem scanStep_cases {s : State} {c c' : Scan} (h : s.scanStep c = .ok c') :
    (s.pairMatch .pktPrefix c.pos = .ok true ∧ ∃ r, s.decodePacket c.pos = .ok r ∧ c' = c.packet r) ∨
    (s.pairMatch .pktPrefix c.pos = .ok false ∧ s.pairMatch .pktPrefix (c.pos + 1) = .ok true ∧
      c' = c.nudge) ∨
    (s.pairMatch .pktPrefix c.pos = .ok false ∧ s.pairMatch .pktPrefix (c.pos + 1) = .ok false ∧
      c' = c.skip) := by
  unfold State.scanStep at h
  split at h
  · simp at h
  · split at h
    · simp at h
    · exact .inl ⟨‹_›, _, ‹_›, by simpa using h.symm⟩
  · split at h
    · simp at h
    · exact .inr (.inl ⟨‹_›, ‹_›, by simpa using h.symm⟩)
    · exact .inr (.inr ⟨‹_›, ‹_›, by simpa using h.symm⟩)

theorem scanStep_completes {s : State} (hs : s.streamWritten) (c : Scan) : ∃ c', s.scanStep c = .ok c' := by
  unfold State.scanStep
  obtain ⟨b, hb⟩ := pairMatch_completes hs .pktPrefix c.pos
  rw [hb]
  cases b
  · obtain ⟨b, hb⟩ := pairMatch_completes hs .pktPrefix (c.pos + 1)
    simp only [hb]
    cases b <;> exact ⟨_, rfl⟩
  · obtain ⟨r, hr⟩ := decodePacket_completes hs c.pos
    simp only [hr]
    exact ⟨_, rfl⟩

theorem scanStep_error {s : State} {c : Scan} {f : Fault} (h : s.scanStep c = .error f) :
    ∃ i, f = .unwrittenSample i ∧ i < s.rxLen.toNat ∧ s.rxw i = false := by
  have ofMatch {q : Nat} {g : Fault} (hm : s.pairMatch .pktPrefix q = .error g) (e : g = f) :
      ∃ i, f = .unwrittenSample i ∧ i < s.rxLen.toNat ∧ s.rxw i = false := by
    obtain ⟨i, hi, _, h1, h2⟩ := pairMatch_error hm
    exact ⟨i, e ▸ hi, h1, h2⟩
  unfold State.scanStep at h
  split at h
  · exact ofMatch ‹_› (by simpa using h)
  · split at h
    · obtain ⟨i, hi, h12⟩ := decodePacket_error ‹_›
      exact ⟨i, by simpa [hi] using h.symm, h12⟩
    · simp at h
  · split at h
    · exact ofMatch ‹_› (by simpa using h)
    · simp at h
    · simp at h

/-- The number of scan steps taken so far. -/
def Scan.count (c : Scan) : Nat := c.pkts + c.bad + c.skips + c.nudges

/-- A scan step counts once and moves the cursor by at least one, inside the stream. -/
theorem scanStep_progress {s : State} {c c' : Scan} (hp : c.pos + pktSamples ≤ s.rxLen.toNat)
    (h : s.scanStep c = .ok c') :
    c'.count = c.count + 1 ∧ c.pos + 1 ≤ c'.pos ∧ c'.pos ≤ s.rxLen.toNat := by
  unfold pktSamples at hp
  rcases scanStep_cases h with ⟨hm, ⟨r, q⟩, hr, rfl⟩ | ⟨_, _, rfl⟩ | ⟨_, _, rfl⟩
  · have := decodePacket_progress hm hr
    cases r <;> simp only [Scan.packet, Scan.count] <;> omega
  · simp only [Scan.nudge, Scan.count]
    omega
  · simp only [Scan.skip, Scan.count]
    omega

theorem scanLoop_completes {s : State} (hs : s.streamWritten) (n : Nat) (c : Scan) :
    ∃ c', s.scanLoop n c = .ok c' := by
  induction n generalizing c with
  | zero => exact ⟨_, rfl⟩
  | succ n ih =>
    rw [State.scanLoop]
    split
    · obtain ⟨c', hc⟩ := scanStep_completes hs c
      simp only [hc]
      exact ih c'
    · exact ⟨_, rfl⟩

theorem scanLoop_error {s : State} {n : Nat} {c : Scan} {f : Fault} (h : s.scanLoop n c = .error f) :
    ∃ i, f = .unwrittenSample i ∧ i < s.rxLen.toNat ∧ s.rxw i = false := by
  induction n generalizing c with
  | zero => simp [State.scanLoop] at h
  | succ n ih =>
    rw [State.scanLoop] at h
    split at h
    · split at h
      · obtain ⟨i, hi, h12⟩ := scanStep_error ‹_›
        exact ⟨i, by simpa [hi] using h.symm, h12⟩
      · exact ih h
    · simp at h

/-- An invariant of scan steps is one of the whole scan. -/
theorem scanLoop_induction {s : State} {P : Scan → Prop}
    (hstep : ∀ c c', P c → c.pos + pktSamples ≤ s.rxLen.toNat → s.scanStep c = .ok c' → P c')
    {n : Nat} {c c' : Scan} (hc : P c) (h : s.scanLoop n c = .ok c') : P c' := by
  induction n generalizing c with
  | zero =>
    simp only [State.scanLoop, Except.ok.injEq] at h
    exact h ▸ hc
  | succ n ih =>
    rw [State.scanLoop] at h
    split at h
    · split at h
      · simp at h
      · exact ih (hstep _ _ hc ‹_› ‹_›) h
    · simp only [Except.ok.injEq] at h
      exact h ▸ hc

/-- One iteration of the loop, for a proof that runs a scan (log 19: any fuel does). -/
theorem scanLoop_step {s : State} {n : Nat} {c c' : Scan} (hp : c.pos + pktSamples ≤ s.rxLen.toNat)
    (h : s.scanStep c = .ok c') : s.scanLoop (n + 1) c = s.scanLoop n c' := by
  rw [State.scanLoop, if_pos hp, h]

theorem scanLoop_done {s : State} {n : Nat} {c : Scan} (hp : ¬ c.pos + pktSamples ≤ s.rxLen.toNat) :
    s.scanLoop n c = .ok c := by
  cases n with
  | zero => rfl
  | succ n => rw [State.scanLoop, if_neg hp]

/-- The bounded loop, with fuel for every sample left, is a run of the unbounded one (log 19). -/
theorem scanRuns_of_scanLoop {s : State} {n : Nat} {c d : Scan} (h : s.scanLoop n c = .ok d)
    (hn : s.rxLen.toNat ≤ c.pos + n) : s.ScanRuns c d := by
  induction n generalizing c with
  | zero =>
    simp only [State.scanLoop, Except.ok.injEq] at h
    exact h ▸ .done c (by unfold pktSamples; omega)
  | succ n ih =>
    rw [State.scanLoop] at h
    split at h
    · split at h
      · simp at h
      · have := scanStep_progress ‹_› ‹_›
        exact .step c _ d ‹_› ‹_› (ih h (by omega))
    · simp only [Except.ok.injEq] at h
      exact h ▸ .done c (by omega)

/-- A fault of the bounded loop is one of the unbounded loop. -/
theorem scanFaults_of_scanLoop {s : State} {n : Nat} {c : Scan} {f : Fault}
    (h : s.scanLoop n c = .error f) : s.ScanFaults c f := by
  induction n generalizing c with
  | zero => simp [State.scanLoop] at h
  | succ n ih =>
    rw [State.scanLoop] at h
    split at h
    · split at h
      · exact .here c f ‹_› (by simp_all)
      · exact .step c _ f ‹_› ‹_› (ih h)
    · simp at h

/-- A fault of the unbounded loop is one of the bounded loop, with fuel for every sample left (log 19). -/
theorem scanLoop_of_scanFaults {s : State} {n : Nat} {c : Scan} {f : Fault} (h : s.ScanFaults c f)
    (hn : s.rxLen.toNat ≤ c.pos + n) : s.scanLoop n c = .error f := by
  induction h generalizing n with
  | here c f hp hs =>
    cases n with
    | zero =>
      unfold pktSamples at hp
      omega
    | succ n => rw [State.scanLoop, if_pos hp, hs]
  | step c c' f hp hs _ ih =>
    have := scanStep_progress hp hs
    cases n with
    | zero =>
      unfold pktSamples at hp
      omega
    | succ n => rw [scanLoop_step hp hs, ih (by omega)]

/-- A run of the unbounded loop is what the bounded one answers, with fuel for every sample left (log 19). -/
theorem scanLoop_of_scanRuns {s : State} {n : Nat} {c d : Scan} (h : s.ScanRuns c d)
    (hn : s.rxLen.toNat ≤ c.pos + n) : s.scanLoop n c = .ok d := by
  induction h generalizing n with
  | done c hd => exact scanLoop_done (by omega)
  | step c c' d hp hs _ ih =>
    have := scanStep_progress hp hs
    cases n with
    | zero =>
      unfold pktSamples at hp
      omega
    | succ n => rw [scanLoop_step hp hs, ih (by omega)]

end Sys2Proof.Machine
end

