-- ==== Sys2Proof/Laws/Samples.lean ====
section
/-! SUPPORT. The packet parser and the scan over a list of samples: on a state whose stream is that list they
answer what the model answers, without looking anything up, so that the kernel can run a whole frame. -/
namespace Sys2Proof.Machine

/-- A sample as RXMEM holds it. -/
def wrapSample (v : Int) : Int := (BitVec.ofInt 32 v).toInt

/-- Match(T, p) on the samples from p to the end of the stream. -/
def listMatch (tol : BitVec 7) (t : Template) : List Int → Bool
  | m :: sp :: _ => inWindow tol (markOf t) (wrapSample m) && inWindow tol (spaceOf t) (-(wrapSample sp))
  | [_] => false
  | [] => false

/-- Step 2 of DecodePacket on the samples from p on: the word, and the number of samples consumed. -/
def listBits (tol : BitVec 7) : Nat → List Int → PacketWord → Option PacketWord × Nat
  | 0, _, acc => (some acc, 0)
  | n + 1, vs, acc =>
    bif listMatch tol .one vs then
      let r := listBits tol n (vs.drop 2) ((acc <<< 1) ||| 1#64)
      (r.1, r.2 + 2)
    else bif listMatch tol .zero vs then
      let r := listBits tol n (vs.drop 2) (acc <<< 1)
      (r.1, r.2 + 2)
    else (none, 0)

/-- DecodePacket on the samples from p on: the result, and the number of samples consumed. -/
def listPacket (tol : BitVec 7) (vs : List Int) : Parse × Nat :=
  bif listMatch tol .pktPrefix vs then
    match listBits tol pktBits (vs.drop 2) 0#64 with
    | (none, n) => (.absent .badBit, n + 2)
    | (some acc, n) =>
      bif listMatch tol .pktSuffix (vs.drop (n + 2)) then (validate acc, n + 4)
      else (.absent .noSuffix, n + 2)
  else (.absent .noPrefix, 0)

/-- The scan of RX_FRAME on the samples from the cursor on. -/
def listScan (tol : BitVec 7) : Nat → List Int → Scan → Scan
  | 0, _, c => c
  | fuel + 1, vs, c =>
    bif Nat.ble pktSamples vs.length then
      bif listMatch tol .pktPrefix vs then
        let r := listPacket tol vs
        listScan tol fuel (vs.drop r.2) (c.packet (r.1, c.pos + r.2))
      else bif listMatch tol .pktPrefix (vs.drop 1) then listScan tol fuel (vs.drop 1) c.nudge
      else listScan tol fuel (vs.drop 2) c.skip
    else c

/-- The stream from index p to its end is this list of samples. -/
structure State.streamIs (s : State) (p : Nat) (vs : List Int) : Prop where
  holds : s.holdsSamples p vs
  len : s.rxLen.toNat = p + vs.length

theorem streamIs_drop {s : State} {p : Nat} {vs : List Int} (h : s.streamIs p vs) {n : Nat}
    (hn : n ≤ vs.length) : s.streamIs (p + n) (vs.drop n) where
  holds i v hv := by
    rw [Nat.add_assoc]
    exact h.holds (n + i) v (by simpa using hv)
  len := by
    have := h.len
    simp only [List.length_drop]
    omega

theorem readSample_list {s : State} {p : Nat} {v : Int} {vs : List Int} (h : s.streamIs p (v :: vs)) :
    s.readSample p = .ok (wrapSample v) := by
  have := h.holds 0 v rfl
  simp only [Nat.add_zero] at this
  simp [State.readSample, this, wrapSample]

theorem pairMatch_list {s : State} {p : Nat} {vs : List Int} (t : Template) (h : s.streamIs p vs) :
    s.pairMatch t p = .ok (listMatch s.tol t vs) := by
  have hl := h.len
  unfold State.pairMatch State.markMatch
  match vs with
  | [] =>
    simp only [List.length_nil] at hl
    rw [if_neg (by omega)]
    rfl
  | [m] =>
    simp only [List.length_cons, List.length_nil] at hl
    rw [if_pos (by omega), readSample_list h]
    unfold State.spaceMatch
    rw [if_neg (by omega)]
    cases hw : inWindow s.tol (markOf t) (wrapSample m) <;> simp [hw, listMatch]
  | m :: sp :: ws =>
    simp only [List.length_cons] at hl
    have h1 : s.streamIs (p + 1) (sp :: ws) := streamIs_drop (n := 1) h (by simp)
    rw [if_pos (by omega), readSample_list h]
    unfold State.spaceMatch
    rw [if_pos (by omega), readSample_list h1]
    cases hw : inWindow s.tol (markOf t) (wrapSample m) <;> simp [hw, listMatch]

/-- A pair lies in a template's windows exactly when Match over the list says so. -/
theorem pairInWindow_list {s : State} {p : Nat} {vs : List Int} (t : Template) (h : s.streamIs p vs) :
    s.pairInWindow t p ↔ listMatch s.tol t vs = true := by
  rw [← pairMatch_true_iff, pairMatch_list t h, Except.ok.injEq]

theorem listMatch_length {tol : BitVec 7} {t : Template} {vs : List Int} (h : listMatch tol t vs = true) :
    2 ≤ vs.length := by
  match vs with
  | [] => simp [listMatch] at h
  | [_] => simp [listMatch] at h
  | _ :: _ :: _ => simp

theorem decodeBits_list {s : State} {p : Nat} {vs : List Int} (h : s.streamIs p vs) (n : Nat)
    (acc : PacketWord) : s.decodeBits n p acc =
      .ok ((listBits s.tol n vs acc).1, p + (listBits s.tol n vs acc).2) ∧
    (listBits s.tol n vs acc).2 ≤ vs.length := by
  induction n generalizing p vs acc with
  | zero => simp [State.decodeBits, listBits]
  | succ n ih =>
    rw [State.decodeBits, pairMatch_list .one h, pairMatch_list .zero h, listBits]
    cases h1 : listMatch s.tol .one vs
    · cases h0 : listMatch s.tol .zero vs
      · simp
      · have h2 := listMatch_length h0
        have := ih (streamIs_drop h h2) (acc <<< 1)
        rw [List.length_drop] at this
        simp only [cond_true, cond_false, this.1]
        exact ⟨by congr 2; omega, by omega⟩
    · have h2 := listMatch_length h1
      have := ih (streamIs_drop h h2) ((acc <<< 1) ||| 1#64)
      rw [List.length_drop] at this
      simp only [cond_true, this.1]
      exact ⟨by congr 2; omega, by omega⟩

theorem decodePacket_list {s : State} {p : Nat} {vs : List Int} (h : s.streamIs p vs) :
    s.decodePacket p = .ok ((listPacket s.tol vs).1, p + (listPacket s.tol vs).2) ∧
    (listPacket s.tol vs).2 ≤ vs.length := by
  unfold State.decodePacket listPacket
  rw [pairMatch_list .pktPrefix h]
  cases h1 : listMatch s.tol .pktPrefix vs
  · simp
  · have h2 := listMatch_length h1
    obtain ⟨e, hn⟩ := decodeBits_list (streamIs_drop h h2) pktBits 0#64
    rw [List.length_drop] at hn
    simp only [cond_true, e]
    rcases hr : listBits s.tol pktBits (vs.drop 2) 0#64 with ⟨_ | acc, n⟩
    · simp only [hr] at hn ⊢
      exact ⟨by congr 2; omega, by omega⟩
    · simp only [hr] at hn ⊢
      have h3 : s.streamIs (p + 2 + n) (vs.drop (n + 2)) := by
        have := streamIs_drop h (n := n + 2) (by omega)
        rwa [show p + (n + 2) = p + 2 + n by omega] at this
      unfold State.decodeEnd
      rw [pairMatch_list .pktSuffix h3]
      cases h4 : listMatch s.tol .pktSuffix (vs.drop (n + 2))
      · exact ⟨by simp only [cond_false]; congr 2; omega, by simp only [cond_false]; omega⟩
      · have h5 := listMatch_length h4
        rw [List.length_drop] at h5
        exact ⟨by simp only [cond_true]; congr 2; omega, by simp only [cond_true]; omega⟩

theorem scanLoop_list {s : State} {vs : List Int} (fuel : Nat) (c : Scan) (h : s.streamIs c.pos vs) :
    s.scanLoop fuel c = .ok (listScan s.tol fuel vs c) := by
  induction fuel generalizing vs c with
  | zero => rfl
  | succ fuel ih =>
    have hl := h.len
    rw [State.scanLoop, listScan]
    by_cases hr : pktSamples ≤ vs.length
    · rw [if_pos (by omega), Nat.ble_eq_true_of_le hr]
      unfold State.scanStep
      have h1 : s.streamIs (c.pos + 1) (vs.drop 1) := streamIs_drop h (by unfold pktSamples at hr; omega)
      rw [pairMatch_list .pktPrefix h, pairMatch_list .pktPrefix h1]
      cases hp : listMatch s.tol .pktPrefix vs
      · cases hq : listMatch s.tol .pktPrefix (vs.drop 1)
        · exact ih c.skip (streamIs_drop h (by unfold pktSamples at hr; omega))
        · exact ih c.nudge h1
      · obtain ⟨e, hn⟩ := decodePacket_list h
        simp only [e, cond_true]
        refine ih _ ?_
        have := streamIs_drop h hn
        cases hv : (listPacket s.tol vs).1 <;> exact this
    · rw [if_neg (by omega)]
      have : Nat.ble pktSamples vs.length = false := by
        rw [← Bool.not_eq_true]
        exact fun hb => hr (Nat.le_of_ble_eq_true hb)
      rw [this]
      rfl

/-! ### A state whose stream is a given list -/

/-- Writes the samples from index i on. -/
def State.storeFrom (s : State) : Nat → List Int → State
  | _, [] => s
  | i, v :: vs => (s.storeRx i (BitVec.ofInt 32 v)).storeFrom (i + 1) vs

/-- What LOADRX leaves (30_encoding.md R91): the samples at index 0, RX_LEN their number, RX_POS 0. -/
def State.loaded (s : State) (vs : List Int) : State :=
  { s.storeFrom 0 vs with rxLen := BitVec.ofNat 32 vs.length, rxPos := 0#32 }

theorem storeFrom_below {s : State} {i j : Nat} {vs : List Int} (h : j < i) :
    (s.storeFrom i vs).rxWord j = s.rxWord j := by
  induction vs generalizing s i with
  | nil => rfl
  | cons v vs ih => rw [State.storeFrom, ih (by omega), rxWord_storeRx_of_ne (by omega)]

theorem storeFrom_above {s : State} {i j : Nat} {vs : List Int} (h : i + vs.length ≤ j) :
    (s.storeFrom i vs).rxWord j = s.rxWord j := by
  induction vs generalizing s i with
  | nil => rfl
  | cons v vs ih =>
    rw [List.length_cons] at h
    rw [State.storeFrom, ih (by omega), rxWord_storeRx_of_ne (by omega)]

theorem storeFrom_holds (s : State) (i : Nat) (vs : List Int) : (s.storeFrom i vs).holdsSamples i vs := by
  induction vs generalizing s i with
  | nil => intro k v h; simp at h
  | cons w vs ih =>
    intro k v h
    cases k with
    | zero =>
      simp only [List.getElem?_cons_zero, Option.some.injEq] at h
      simp only [Nat.add_zero]
      rw [State.storeFrom, storeFrom_below (by omega), rxWord_storeRx, h]
    | succ k =>
      rw [State.storeFrom, show i + (k + 1) = i + 1 + k by omega]
      exact ih _ _ k v (by simpa using h)

/-- Only the memory differs. -/
theorem storeFrom_eq (s : State) (i : Nat) (vs : List Int) :
    s.storeFrom i vs = { s with mem := (s.storeFrom i vs).mem } := by
  induction vs generalizing s i with
  | nil => rfl
  | cons v vs ih =>
    rw [State.storeFrom, ih]
    rfl

@[simp] theorem loaded_tol (s : State) (vs : List Int) : (s.loaded vs).tol = s.tol := by
  show (s.storeFrom 0 vs).tol = s.tol
  rw [storeFrom_eq]

@[simp] theorem loaded_cfg (s : State) (vs : List Int) : (s.loaded vs).cfg = s.cfg := by
  show (s.storeFrom 0 vs).cfg = s.cfg
  rw [storeFrom_eq]

theorem loaded_rxLen {s : State} {vs : List Int} (h : vs.length < 2 ^ 32) :
    (s.loaded vs).rxLen.toNat = vs.length := by
  show (BitVec.ofNat 32 vs.length).toNat = _
  rw [BitVec.toNat_ofNat, Nat.mod_eq_of_lt h]

theorem loaded_holds (s : State) (vs : List Int) : (s.loaded vs).holdsSamples 0 vs :=
  storeFrom_holds s 0 vs

theorem loaded_streamIs {s : State} {vs : List Int} (h : vs.length < 2 ^ 32) :
    (s.loaded vs).streamIs 0 vs where
  holds := loaded_holds s vs
  len := by rw [loaded_rxLen h, Nat.zero_add]

/-- A stream given by a list has been written. -/
theorem streamIs_written {s : State} {vs : List Int} (h : s.streamIs 0 vs) : s.streamWritten := by
  intro i hi
  have hl := h.len
  obtain ⟨v, hv⟩ : ∃ v, vs[i]? = some v := ⟨vs[i]'(by omega), by simp⟩
  have := h.holds i v hv
  rw [Nat.zero_add] at this
  simp [State.rxw, this]

/-! ### The receive commands -/

/-- RX_PKT over a list. -/
theorem execRxPkt_list {s : State} {vs : List Int} (h : s.streamIs s.rxPos.toNat vs) :
    execRxPkt s = .next ((s.setRxPos (s.rxPos.toNat + (listPacket s.tol vs).2)).publish
      (listPacket s.tol vs).1) := by
  rw [execRxPkt, (decodePacket_list h).1]
  rfl

/-- RX_FRAME over a list. -/
theorem execRxFrame_list {s : State} {vs : List Int} (h : s.streamIs 0 vs)
    (hm : s.cfg.minRxSamples ≤ s.rxLen.toNat) :
    execRxFrame s = .next (s.endFrame (listScan s.tol s.rxLen.toNat vs Scan.start)) := by
  rw [execRxFrame, if_neg (by omega), scanLoop_list _ Scan.start h]
  rfl

end Sys2Proof.Machine
end

