-- ==== Sys2Proof/Tests/Slice0.lean ====
section
/-! SUPPORT. Tests of the model and, for every obligation with hypotheses, a concrete state that meets them.
Each test's expected value is a line of spec/95_test_vectors.md or an example of the rule named; the command
codes are its labelled test assignment. -/
namespace Sys2Proof.Tests
open Sys2Proof.Machine

-- The kernel runs these tests one after another: many at once can exhaust the threads of a small machine.
set_option Elab.async false

/-! ### States the tests start from -/

/-- The test assignment and the defaults of 95_test_vectors.md. -/
def cfg0 : Params :=
  { cmdUp := 0x10#8, cmdDown := 0x20#8, cmdProgram := 0x30#8, cmdRelease := 0x40#8
    rxCap := 2048, txCap := 1024, minRxSamples := 856, window := 0 }

/-- The start state "reset" of 95_test_vectors.md. -/
def st0 : State := { State.reset with cfg := cfg0 }

/-- The record of 95_test_vectors.md E1. -/
def recStop : Record := { device := 0x123456#24, channel := 0x0100#16, command := 0x23#8 }

/-- The record of V8. -/
def recUp : Record := { recStop with command := 0x10#8 }

/-- The packet of E1. -/
def pktStop : PacketWord := 0xA3123456010023C0#64

/-- st0 with an input record. -/
def withInput (r : Record) : State :=
  { st0 with device := r.device, channel := r.channel, command := r.command }

/-- st0 with a word in PKT_HI and PKT_LO. -/
def withPkt (p : PacketWord) : State := st0.setPkt p

/-- st0 with accesses pending. -/
def issuing (ops : List HostOp) : State := { st0 with host := ops }

/-- A component of the next state, if there is one. -/
def after {α : Type} (o : Host.Outcome State Fault Refusal) (f : State → α) : Option α :=
  match o with
  | .next t => some (f t)
  | .fault _ => none
  | .refused _ => none

/-! ### WellFormed refuses operands that do not fit their fields (30_encoding.md R83) -/

theorem test_wf_refuses_off_256 : ¬ (Instr.rxMatch .one 256).WellFormed := by decide
theorem test_wf_refuses_count_65536 : ¬ (Instr.rxAdvance 65536).WellFormed := by decide
theorem test_wf_admits_bounds :
    (Instr.rxMatch .zero 255).WellFormed ∧ (Instr.rxAdvance 65535).WellFormed := by decide

/-! ### Decoding words written out from 30_encoding.md R82 to R84, R90 -/

/-- 44_control.md; the high bits of V14. -/
theorem test_decode_control :
    decode 0x00000000#32 = .ok .nop ∧ decode 0xFFFFFF00#32 = .ok .nop ∧
    decode 0x0000000F#32 = .ok .softReset ∧ decode 0x0000010F#32 = .ok .softReset := by decide

theorem test_decode_packetCodec :
    decode 0x00000001#32 = .ok .cksum ∧ decode 0x00000002#32 = .ok .pack ∧
    decode 0x00000003#32 = .ok .unpack := by decide

theorem test_decode_modulator :
    decode 0x00000004#32 = .ok .txClear ∧ decode 0x00000005#32 = .ok .emitPkt := by decide

/-- R90's examples and V13; the last word is (255 << 16) | (3 << 8) | 7. -/
theorem test_decode_demodulator :
    decode 0x00010007#32 = .ok (.rxMatch .pktPrefix 1) ∧
    decode 0x00000107#32 = .ok (.rxMatch .pktSuffix 0) ∧
    decode 0x00000208#32 = .ok (.rxExpect .one) ∧ decode 0x00000308#32 = .ok (.rxExpect .zero) ∧
    decode 0x00050008#32 = .ok (.rxExpect .pktPrefix) ∧
    decode 0x00020009#32 = .ok (.rxAdvance 2) ∧ decode 0xFFFF0009#32 = .ok (.rxAdvance 65535) ∧
    decode 0x0000000A#32 = .ok .rxPkt ∧
    decode 0x00FF0307#32 = .ok (.rxMatch .zero 255) := by decide

theorem test_decode_frameSync :
    decode 0x00000006#32 = .ok .txFrame ∧ decode 0x0000000B#32 = .ok .rxFrame := by decide

/-- The words of V14. -/
theorem test_decode_reserved :
    decode 0x0000000C#32 = .error (.reservedOpcode 0x0C#8) ∧
    decode 0x0000000D#32 = .error (.reservedOpcode 0x0D#8) ∧
    decode 0x0000000E#32 = .error (.reservedOpcode 0x0E#8) ∧
    decode 0x00000010#32 = .error (.reservedOpcode 0x10#8) ∧
    decode 0x000000FF#32 = .error (.reservedOpcode 0xFF#8) ∧
    decode 0x1234560C#32 = .error (.reservedOpcode 0x0C#8) := by decide

/-- A command word is exactly 32 bits (R86). -/
theorem test_decodeBytes :
    decodeBytes [0x07#8, 0x00#8, 0x01#8, 0x00#8] = .ok (.rxMatch .pktPrefix 1) ∧
    decodeBytes [0x07#8] = .error (.notOneWord 1) := by decide

/-- R90's words, from the encoder. -/
theorem test_encode :
    encode (.rxMatch .pktPrefix 1) = 0x00010007#32 ∧ encode (.rxExpect .one) = 0x00000208#32 ∧
    encode (.rxAdvance 2) = 0x00020009#32 ∧ encode .txFrame = 0x00000006#32 := by decide

/-- The very next step runs the fetched word: V14's NOP and reserved opcode on a reset state. -/
theorem test_withFetchWord_runs :
    after (step (({ st0 with err := .badCksum } : State).withFetchWord 32 0xFFFFFF00)) (fun t => t.err)
      = some .none ∧
    after (step (State.reset.withFetchWord 8 0x0C)) (fun t => t.statusWord) = some 0x00000900#32 := by
  decide

/-! ### Commands -/

/-- V14, first line. -/
theorem test_nop_clears_err :
    after (exec .nop { st0 with err := .badCksum, valid := true }) (fun t => t.statusWord)
      = some 0x00000001#32 := by decide

/-- V1, the record of the source. -/
theorem test_cksum_C0 : after (exec .cksum (withInput recStop)) (fun t => t.cksum) = some 0xC0#8 := by decide

/-- V1, a sum that wraps. -/
theorem test_cksum_wraps :
    after (exec .cksum (withInput ⟨0xABCDEF#24, 0x8000#16, 0x10#8⟩)) (fun t => t.cksum) = some 0xF7#8 := by
  decide

/-- V1. -/
theorem test_pack_stop :
    after (exec .pack (withInput recStop)) (fun t => (t.pktHi, t.pktLo, t.cksum))
      = some (0xA3123456#32, 0x010023C0#32, 0xC0#8) := by decide

/-- V1, the maximum sum. -/
theorem test_pack_ones :
    after (exec .pack (withInput ⟨0xFFFFFF#24, 0xFFFF#16, 0xFF#8⟩)) (fun t => (t.pktHi, t.pktLo))
      = some (0xA3FFFFFF#32, 0xFFFFFFFA#32) := by decide

/-- V2, the valid word of the source's record. -/
theorem test_unpack_valid :
    after (exec .unpack (withPkt pktStop)) (fun t => (t.statusWord, t.outputRecord))
      = some (0x00000001#32, recStop) := by decide

/-- V2: a wrong checksum, and a header tested before it. -/
theorem test_unpack_absent :
    after (exec .unpack { withPkt 0xA3123456010023A1#64 with valid := true, rxDevice := 1#24 })
      (fun t => (t.statusWord, t.outputRecord)) = some (0x00000600#32, zeroRecord) ∧
    after (exec .unpack (withPkt 0x00123456010023A1#64)) (fun t => t.statusWord)
      = some 0x00000500#32 := by decide

/-- 41_modulator.md R133's example. -/
theorem test_txClear_empties :
    after (exec .txClear ({ (st0.txAppend 290#32 600#32) with txCount := 428#32, txHint := 428#32 }))
      (fun t => (t.txCount, t.txHint, t.readWindow 0x02000000)) = some (0#32, 428#32, 0#32) := by
  decide +kernel

/-- V3: TX_COUNT = 958 fits, 959 does not. -/
theorem test_emitPkt_boundary :
    after (exec .emitPkt { withPkt pktStop with txCount := 958#32 }) (fun t => (t.txCount, t.err))
      = some (1024#32, .none) ∧
    after (exec .emitPkt { withPkt pktStop with txCount := 959#32 }) (fun t => (t.txCount, t.err))
      = some (959#32, .txFull) := by decide +kernel

/-- V3: the templates of entries 0 to 9, 64 and 65, and n1 = 19. -/
theorem test_pulseSeq_stop :
    (pulseSeq pktStop).take 10
      = [.pktPrefix, .one, .zero, .one, .zero, .zero, .zero, .one, .one, .zero] ∧
    (pulseSeq pktStop).drop 64 = [.zero, .pktSuffix] ∧ (pulseSeq pktStop).count .one = 19 ∧
    onAir (pulseSeq pktStop) = 67875 := by decide +kernel

/-- V6 and V8: what TX_FRAME reports for STOP and UP. -/
theorem test_txFrame_reports :
    after (exec .txFrame { withInput recStop with carrier := 433920000#32 })
      (fun t => (t.carrier, t.txHint, t.txCount, t.txPkts, t.err))
      = some (0#32, 428#32, 428#32, 6#32, .none) ∧
    after (exec .txFrame { withInput recUp with cfg := { cfg0 with txCap := 824 } })
      (fun t => (t.txHint, t.txCount, t.txPkts, t.command)) = some (824#32, 824#32, 12#32, 0x10#8) := by
  decide +kernel

/-- V14: TX_CAP = 800 is too small for UP, and nothing is written. -/
theorem test_txFrame_full :
    after (exec .txFrame { withInput recUp with cfg := { cfg0 with txCap := 800 }, carrier := 5#32 })
      (fun t => (t.carrier, t.txCount, t.txHint, t.err)) = some (5#32, 0#32, 0#32, .txFull) := by
  decide +kernel

/-- V6's template counts, and V8's RELEASE packet at entries 412 to 477. -/
theorem test_frameSeq :
    (frameSeq cfg0 recStop).count .pktPrefix = 6 ∧ (frameSeq cfg0 recStop).count .one = 114 ∧
    (frameSeq cfg0 recStop).count .zero = 302 ∧
    ((frameSeq cfg0 recUp).drop 412).take 66 = pulseSeq 0xA3123456010040DD#64 := by decide +kernel

/-- V12: window edges of PREFIX at 25 %, of ZERO, and the polarity of the space. -/
theorem test_rxMatch_windows :
    after (exec (.rxMatch .pktPrefix 0) (st0.loaded [3750, -600])) (fun t => t.matched) = some true ∧
    after (exec (.rxMatch .pktPrefix 0) (st0.loaded [3749, -600])) (fun t => t.matched) = some false ∧
    after (exec (.rxMatch .zero 0) (st0.loaded [362, -750])) (fun t => t.matched) = some true ∧
    after (exec (.rxMatch .zero 0) (st0.loaded [362, -751])) (fun t => t.matched) = some false ∧
    after (exec (.rxMatch .pktPrefix 0) (st0.loaded [5000, 600])) (fun t => t.matched) = some false := by
  decide +kernel

/-- V13: the peek at cursor + 1 leaves the cursor. -/
theorem test_rxMatch_offset :
    after (exec (.rxMatch .pktPrefix 1) (st0.loaded [7, 5000, -600])) (fun t => (t.statusWord, t.rxPos))
      = some (0x00000002#32, 0#32) := by decide +kernel

/-- V13's sequence, steps 2 and 3. -/
theorem test_rxExpect_consumes_on_match :
    after (exec (.rxExpect .one) { st0.loaded [5000, -600, 600, -275] with rxPos := 2#32 })
      (fun t => (t.matched, t.rxPos)) = some (true, 4#32) ∧
    after (exec (.rxExpect .zero) { st0.loaded [5000, -600, 600, -275] with rxPos := 2#32 })
      (fun t => (t.matched, t.rxPos)) = some (false, 2#32) := by decide +kernel

/-- V13. -/
theorem test_rxAdvance_saturates :
    after (exec (.rxAdvance 65535) { st0 with rxPos := 7#32 }) (fun t => t.rxPos) = some 65542#32 ∧
    after (exec (.rxAdvance 65535) { st0 with rxPos := 0xFFFFFFF0#32 }) (fun t => t.rxPos)
      = some 0xFFFFFFFF#32 := by decide

theorem listPacket_stop : listPacket 25#7 (render (pulseSeq pktStop)) = (.ok recStop, 132) := by
  decide +kernel

/-- V4a. -/
theorem test_rxPkt_decodes : exec .rxPkt (st0.loaded (render (pulseSeq pktStop))) =
    .next (((st0.loaded (render (pulseSeq pktStop))).setRxPos 132).publish (.ok recStop)) := by
  have h := execRxPkt_list (s := st0.loaded (render (pulseSeq pktStop)))
    (loaded_streamIs (by rw [render_length, pulseSeq_length]; omega))
  rw [loaded_tol] at h
  rw [show st0.tol = 25#7 from rfl, listPacket_stop] at h
  exact h

/-- V4g: sample 22 set to 1000; V4h: the last sample missing; V4e: from sample 1. -/
theorem test_decodePacket_failures :
    listPacket 25#7 ((render (pulseSeq pktStop)).set 22 1000) = (.absent .badBit, 22) ∧
    listPacket 25#7 ((render (pulseSeq pktStop)).take 131) = (.absent .noSuffix, 130) ∧
    listPacket 25#7 ((render (pulseSeq pktStop)).drop 1) = (.absent .noPrefix, 0) := by decide +kernel

/-- V4k, V4j and V4o: a bad checksum, a bad header, and ONE tested before ZERO. -/
theorem test_decodePacket_order :
    listPacket 25#7 (render (pulseSeq 0xA3123456010023C1#64)) = (.absent .badCksum, 132) ∧
    listPacket 25#7 (render (pulseSeq 0xA2123456010023C0#64)) = (.absent .badHeader, 132) ∧
    listPacket 38#7 (((render (pulseSeq pktStop)).set 4 380).set 5 (-375)) = (.absent .badHeader, 132) := by
  decide +kernel

theorem frame_short (r : Record) : (render (frameSeq cfg0 r)).length < 2 ^ 32 := by
  rw [render_length, frameSeq_length]
  unfold Params.blocks framePairs preamblePairs postamblePairs repeats pktPairs
  split <;> omega

/-- V7's scan, V8's, and V10's with 123456 before packet 5. -/
theorem test_scan :
    listScan 25#7 856 (render (frameSeq cfg0 recStop)) Scan.start
      = { pos := 824, first := some recStop, pkts := 6, bad := 0, skips := 16, nudges := 0 } ∧
    listScan 94#7 1648 (render (frameSeq cfg0 recUp)) Scan.start
      = { pos := 1616, first := some recUp, pkts := 12, bad := 0, skips := 16, nudges := 0 } ∧
    listScan 25#7 857 ((render (frameSeq cfg0 recStop)).insertIdx 692 123456) Scan.start
      = { pos := 825, first := some recStop, pkts := 6, bad := 0, skips := 16, nudges := 1 } := by
  decide +kernel

/-- V11g and V9: a damaged bit costs two extra skips; at 95 % the preamble matches PREFIX. -/
theorem test_scan_bad_packets :
    listScan 25#7 856 ((render (frameSeq cfg0 recStop)).set 161 (-275)) Scan.start
      = { pos := 824, first := some recStop, pkts := 5, bad := 1, skips := 18, nudges := 0 } ∧
    listScan 95#7 856 (render (frameSeq cfg0 recStop)) Scan.start
      = { pos := 824, first := some recStop, pkts := 6, bad := 1, skips := 0, nudges := 0 } := by
  decide +kernel

theorem frame856 : (render (frameSeq cfg0 recStop)).length = 856 := by decide +kernel
theorem frame1648 : (render (frameSeq cfg0 recUp)).length = 1648 := by decide +kernel

/-- V7, the whole command. -/
theorem test_rxFrame_clean : exec .rxFrame (st0.loaded (render (frameSeq cfg0 recStop))) =
    .next ((st0.loaded (render (frameSeq cfg0 recStop))).endFrame
      { pos := 824, first := some recStop, pkts := 6, bad := 0, skips := 16, nudges := 0 }) := by
  have hl : (st0.loaded (render (frameSeq cfg0 recStop))).rxLen.toNat = 856 := by
    rw [loaded_rxLen (frame_short _), frame856]
  have h := execRxFrame_list (s := st0.loaded (render (frameSeq cfg0 recStop)))
    (loaded_streamIs (frame_short _)) (by rw [loaded_cfg, hl]; decide)
  rw [loaded_tol, hl] at h
  rw [show st0.tol = 25#7 from rfl, test_scan.1] at h
  exact h

/-- V11b. -/
theorem test_rxFrame_short :
    after (exec .rxFrame { st0 with rxPos := 77#32, valid := true }) (fun t => (t.statusWord, t.rxPos))
      = some (0x00000100#32, 0#32) := by decide

/-- V14: SOFT_RESET keeps a written sample and puts TOL_PCT back to 25. -/
theorem test_softReset :
    after (exec .softReset { st0.storeRx 3 9#32 with tol := 10#7, rxLen := 856#32, valid := true })
      (fun t => (t.statusWord, t.rxLen, t.tol, t.rxWord 3)) = some (0#32, 0#32, 25#7, some 9#32) := by
  decide

/-! ### The host's window -/

/-- V13's clamps: 250 and 0xFFFFFFFF to TOL, 5000 to RX_LEN. -/
theorem test_write_clamps :
    after (step (issuing [cfg0.wr .tol 250#32])) (fun t => t.readReg .tol) = some 100#32 ∧
    after (step (issuing [cfg0.wr .tol 0xFFFFFFFF#32])) (fun t => t.readReg .tol) = some 100#32 ∧
    after (step (issuing [cfg0.wr .rxLen 5000#32])) (fun t => t.readReg .rxLen) = some 2048#32 := by decide

/-- 10_state.md R25: bits 31:24 of a write to DEVICE are dropped. -/
theorem test_write_device_truncates :
    after (step (issuing [cfg0.wr .device 0xFF123456#32])) (fun t => t.readReg .device)
      = some 0x00123456#32 := by decide

/-- 30_encoding.md R89: `WRX 1, −600` writes 0xFFFFFDA8 at 0x0100_0004. -/
theorem test_wrx :
    cfg0.wrx 1 (-600) = .write 0x01000004 4 0xFFFFFDA8#32 ∧
    after (step (issuing [cfg0.wrx 1 (-600)])) (fun t => (t.rxWord 1, t.rxw 0))
      = some (some 0xFFFFFDA8#32, false) := by decide

/-- 20_memory.md R69: a two-byte write and a misaligned read. -/
theorem test_bad_access :
    step (issuing [.write 0x08 2 0#32]) = .refused (.badAccess 8 2) ∧
    step (issuing [.read 0x09 4]) = .refused (.badAccess 9 4) := ⟨rfl, rfl⟩

/-- 20_memory.md R64: entry 0 of a one-pair sequence reads its mark and space, entry 1 reads 0. -/
theorem test_read_txmem :
    after (step { st0.txAppend 5000#32 600#32 with host := [.read 0x02000004 4] }) (fun t => t.busData)
      = some (some 600#32) ∧
    after (step { st0.txAppend 5000#32 600#32 with host := [.read 0x02000008 4] }) (fun t => t.busData)
      = some (some 0#32) := by decide +kernel

/-! ### Witnesses: the hypotheses of each obligation are met, each clause at a boundary of its range -/

theorem cfg0_valid : cfg0.Valid := by decide

/-- RXMEM of cfg0 ends below TXMEM. -/
theorem witness_PowerOnResetSetsResetValues :
    (issuing [.powerOnReset, cfg0.rd .status]).host = .powerOnReset :: [cfg0.rd .status] ∧
    rxAddr (issuing [.powerOnReset, cfg0.rd .status]).cfg.rxCap ≤ txBase ∧
    txBase ≤ 2 ^ 26 - 4 := by decide

theorem witness_IdleStepChangesNothing : State.reset.host = [] := rfl

theorem witness_StepRunsDecodedCommand :
    (issuing [.write (3 * 2 ^ 26) 4 0x00FF0307#32]).host = .write (3 * 2 ^ 26) 4 0x00FF0307#32 :: [] ∧
    (3 * 2 ^ 26) % 2 ^ 26 = 0 ∧ (issuing [.write (3 * 2 ^ 26) 4 0x00FF0307#32]).busy = false ∧
    decode 0x00FF0307#32 = .ok (.rxMatch .zero 255) := by decide

/-- Each reserved opcode of the four clauses, the last range at both its ends. -/
theorem witness_ReservedOpcodeSetsIllegalCmd (w : Word)
    (hw : w ∈ [0x0C#32, 0x0D#32, 0x0E#32, 0x10#32, 0xFF#32, 0xFFFFFF10#32]) :
    (issuing [.write 0 4 w]).host = .write 0 4 w :: [] ∧ 0 % 2 ^ 26 = 0 ∧
    (issuing [.write 0 4 w]).busy = false ∧
    (w.toNat % 256 = 0x0C ∨ w.toNat % 256 = 0x0D ∨ w.toNat % 256 = 0x0E ∨ 0x10 ≤ w.toNat % 256) := by
  refine ⟨rfl, rfl, rfl, ?_⟩
  simp only [List.mem_cons, List.not_mem_nil, or_false] at hw
  rcases hw with rfl | rfl | rfl | rfl | rfl | rfl <;> decide

/-- Every register other than CMD. -/
theorem witness_HostWriteSetsRegister (r : Reg) (h : r ≠ .cmd) :
    (issuing [.write r.offset 4 0xFFFFFFFF#32]).host = .write r.offset 4 0xFFFFFFFF#32 :: [] ∧
    r.offset % 2 ^ 26 = r.offset ∧ (issuing [.write r.offset 4 0xFFFFFFFF#32]).busy = false ∧ r ≠ .cmd := by
  refine ⟨rfl, ?_, rfl, h⟩
  cases r <;> rfl

/-- Both ends of each unmapped range, and every read-only register. -/
theorem witness_UnmappedAndReadOnlyIgnoreWrites :
    (issuing []).cfg.Valid ∧ (issuing []).busy = false ∧
    (∀ off ∈ [0x58, 0x00FFFFFC, 0x01000000 + 4 * 2048, 0x01FFFFFC, 0x02000000 + 8 * 1024, 0x03FFFFFC],
      off % 4 = 0 ∧ off % 2 ^ 26 = off ∧
      ((0x58 ≤ off ∧ off < 0x01000000) ∨ (0x01000000 + 4 * cfg0.rxCap ≤ off ∧ off < 0x02000000)
        ∨ 0x02000000 + 8 * cfg0.txCap ≤ off)) ∧
    (∀ off ∈ [0x04, 0x1C, 0x20, 0x24, 0x28, 0x34, 0x38, 0x44, 0x48, 0x4C, 0x50, 0x54],
      off % 4 = 0 ∧ off % 2 ^ 26 = off ∧
      (off = 0x04 ∨ (0x1C ≤ off ∧ off ≤ 0x28) ∨ off = 0x34 ∨ off = 0x38 ∨
        (0x44 ≤ off ∧ off ≤ 0x54))) :=
  ⟨cfg0_valid, rfl, by decide, by decide⟩

/-- The clauses of that statement at those offsets: the registers just below an unmapped range and between
the read-only ones are none of them. -/
theorem test_unmapped_offsets :
    (∀ off ∈ [0x58, 0x00FFFFFC, 0x01000000 + 4 * 2048, 0x01FFFFFC, 0x02000000 + 8 * 1024, 0x03FFFFFC],
      Reg.ofOffset off = none ∧ cfg0.rxIndex off = none ∧ cfg0.txIndex off = none) ∧
    cfg0.rxIndex (0x01000000 + 4 * 2047) = some 2047 ∧
    cfg0.txIndex (0x02000000 + 8 * 1023 + 4) = some 1023 := by decide

theorem witness_HostReadAnswersRegister (r : Reg) :
    (issuing [.read r.offset 4]).host = .read r.offset 4 :: [] ∧ r.offset % 2 ^ 26 = r.offset ∧
    (issuing [.read r.offset 4]).busy = false := by
  refine ⟨rfl, ?_, rfl⟩
  cases r <;> rfl

/-- The first and the last sample, written and then read, and read without having been written. -/
theorem witness_HostWritesAndReadsSamples (i : Nat) (hi : i = 0 ∨ i = 2047) :
    (st0.storeRx i 7#32).cfg.Valid ∧ (st0.storeRx i 7#32).busy = false ∧ i < (st0.storeRx i 7#32).cfg.rxCap ∧
    (0x01000000 + 4 * i) % 2 ^ 26 = 0x01000000 + 4 * i ∧ (st0.storeRx i 7#32).rxWord i = some 7#32 ∧
    st0.rxw i = false := by
  refine ⟨cfg0_valid, rfl, ?_, by omega, rxWord_storeRx _ _ _, rfl⟩
  show i < 2048
  omega

/-- A sequence of one pair: entry 0 is read, the last entry of the buffer reads 0. -/
theorem witness_HostReadsTxPairs :
    (st0.txAppend 5000#32 600#32).cfg.Valid ∧ (st0.txAppend 5000#32 600#32).busy = false ∧
    (st0.txAppend 5000#32 600#32).txPair 0 = some (5000#32, 600#32) ∧
    0x02000004 % 2 ^ 26 = 0x02000000 + 8 * 0 + 4 ∧
    (st0.txAppend 5000#32 600#32).txCount.toNat ≤ 1023 ∧ 1023 < cfg0.txCap ∧
    (0x02000000 + 8 * 1023) % 2 ^ 26 = 0x02000000 + 8 * 1023 :=
  ⟨cfg0_valid, rfl, by decide, by decide, by decide, by decide, by decide⟩

theorem witness_BadAccessIsRefused :
    st0.busy = false ∧ ((2 : Nat) ≠ 4 ∨ 8 % 4 ≠ 0) ∧ ((4 : Nat) ≠ 4 ∨ 9 % 4 ≠ 0) ∧
    (issuing [.read 9 4]).host = .read 9 4 :: [] ∧
    (issuing [.write 8 2 0#32]).host = .write 8 2 0#32 :: [] := by decide

theorem witness_BusyServesOnlyStatusReads :
    ({ issuing [.write 0 4 0#32] with busy := true } : State).busy = true ∧
    ({ issuing [.write 0 4 0#32] with busy := true } : State).host = .write 0 4 0#32 :: [] ∧
    ({ issuing [.read 8 4] with busy := true } : State).host = .read 8 4 :: [] ∧ 8 % 2 ^ 26 ≠ 0x04 ∧
    ({ issuing [.read 4 4] with busy := true } : State).host = .read 4 4 :: [] ∧ 4 % 2 ^ 26 = 0x04 := by
  decide

/-- The last word of the window; and a command, served whatever BASE is. -/
theorem witness_AccessDependsOnLowAddressBits :
    st0.busy = false ∧ 0x03FFFFFC % 4 = 0 ∧
    after (step { issuing [.write 0 4 0x00000001#32] with cfg := { cfg0 with window := 5 } })
      (fun t => (t.cfg.window, t.err)) = some (5, .none) := by decide

theorem witness_RepeatedWriteIsIdempotent :
    0x01000000 ≠ 0 ∧ st0.writeWindow 0x01000000 5#32 = .next (st0.storeRx 0 5#32) := ⟨by decide, rfl⟩

theorem witness_DecodeEncodeRoundTrip :
    (Instr.rxMatch .pktSuffix 255).WellFormed ∧ (Instr.rxAdvance 65535).WellFormed := by decide

/-- Two words that differ in every ignored bit, for each format. -/
theorem witness_DecodeIgnoresUnnamedBits :
    (∀ k, k < 8 → (0x00000006#32).getLsbD k = (0xFFFFFF06#32).getLsbD k) ∧
    ((0x00000006#32).toNat % 256 ≠ 7 ∧ (0x00000006#32).toNat % 256 ≠ 8 ∧
      (0x00000006#32).toNat % 256 ≠ 9) ∧
    ((0x00010107#32).toNat % 256 = 7 ∧
      ∀ k, k < 8 ∨ k = 8 ∨ k = 9 ∨ (16 ≤ k ∧ k < 24) →
        (0x00010107#32).getLsbD k = (0xFF01FD07#32).getLsbD k) ∧
    ((0x00000208#32).toNat % 256 = 8 ∧
      ∀ k, k < 8 ∨ k = 8 ∨ k = 9 → (0x00000208#32).getLsbD k = (0xFFFFFE08#32).getLsbD k) ∧
    ((0x00020009#32).toNat % 256 = 9 ∧
      ∀ k, k < 8 ∨ (16 ≤ k ∧ k < 32) → (0x00020009#32).getLsbD k = (0x0002FF09#32).getLsbD k) := by
  have aux (w w' : Word) (P : Nat → Prop) [DecidablePred P] (hP : ∀ k, P k → k < 32)
      (h : ∀ k < 32, P k → w.getLsbD k = w'.getLsbD k) : ∀ k, P k → w.getLsbD k = w'.getLsbD k :=
    fun k hk => h k (hP k hk) hk
  refine ⟨aux _ _ _ (by omega) (by decide), by decide, ⟨by decide, aux _ _ _ (by omega) (by decide)⟩,
    ⟨by decide, aux _ _ _ (by omega) (by decide)⟩, ⟨by decide, aux _ _ _ (by omega) (by decide)⟩⟩

/-- A word for each of UNPACK's three outcomes, and the record each clause speaks of. -/
theorem witness_UnpackValidatesHeaderThenChecksum :
    (0xA2123456#32).toNat / 2 ^ 24 ≠ 0xA3 ∧ (0xA3123456#32).toNat / 2 ^ 24 = 0xA3 ∧
    BitVec.ofNat 8 (0x010023A1#32).toNat ≠ checksumArith (BitVec.ofNat 24 (0xA3123456#32).toNat)
      (BitVec.ofNat 16 ((0x010023A1#32).toNat / 2 ^ 16)) (BitVec.ofNat 8 ((0x010023A1#32).toNat / 2 ^ 8)) ∧
    BitVec.ofNat 8 (0x010023C0#32).toNat = checksumArith (BitVec.ofNat 24 (0xA3123456#32).toNat)
      (BitVec.ofNat 16 ((0x010023C0#32).toNat / 2 ^ 16)) (BitVec.ofNat 8 ((0x010023C0#32).toNat / 2 ^ 8)) := by
  decide

/-- V5's word, and a bit of each of its three cases at the ends of their ranges. -/
theorem witness_SingleBitFlipIsAbsent :
    validate pktStop = .ok recStop ∧
    (∀ i ∈ [0, 7, 8, 55], validate (pktStop ^^^ BitVec.twoPow 64 i) = .absent .badCksum) ∧
    (∀ i ∈ [56, 63], validate (pktStop ^^^ BitVec.twoPow 64 i) = .absent .badHeader) := by decide

theorem witness_ValidWordIsPackOfItsRecord : validate pktStop = .ok recStop := by decide

theorem witness_TxClearEmptiesSequence : rxAddr st0.cfg.rxCap ≤ txBase := by decide

/-- TX_COUNT = 959 and 958 (V3). -/
theorem witness_EmitPktAppendsWholePacketOrNothing :
    st0.cfg.txCap ≤ 2 ^ 20 ∧ (959#32).toNat + 66 > st0.cfg.txCap ∧ (958#32).toNat + 66 ≤ st0.cfg.txCap := by
  decide

theorem witness_PulseSeqIsInjective :
    (pulseSeq pktStop).map (fun t => (markOf t, spaceOf t))
      = (pulseSeq pktStop).map (fun t => (markOf t, spaceOf t)) := rfl

/-- A capacity of 823 and of 824 for UP, of 427 and of 428 for STOP. -/
theorem witness_TxFrameSendsWholeFrame :
    824 ≤ 2 ^ 20 ∧ recUp.command = cfg0.cmdUp ∧ recStop.command ≠ cfg0.cmdUp ∧
    recStop.command ≠ cfg0.cmdDown ∧
    824 > 823 ∧ 824 ≤ 824 ∧ 428 > 427 ∧ 428 ≤ cfg0.txCap := by decide

/-- The last preamble pair and the last packet, of a frame of each length. -/
theorem witness_FramePositions :
    recUp.command = cfg0.cmdUp ∧ 11 < 6 * 2 ∧
    ¬ (recStop.command = cfg0.cmdUp ∨ recStop.command = cfg0.cmdDown) ∧
    5 < 6 * 1 ∧ 15 < 16 := by decide

/-- A matching pair, the same pair with RX_LEN cutting off its space, and an index past the stream. Then an
unwritten mark, and an unwritten space after a mark that is inside PREFIX's window and outside ONE's. -/
theorem witness_RxMatchSetsMatch :
    (st0.loaded [7, 5000, -600]).pairWritten (0 + 1) ∧ (st0.loaded [7, 5000]).pairWritten (0 + 1) ∧
    st0.pairWritten (0 + 255) ∧
    ({ st0 with rxLen := 1#32 } : State).rxw (0 + 0) = false ∧
    (let s : State := { st0.loaded [5000] with rxLen := 2#32 };
      0 + 1 < s.rxLen.toNat ∧ s.rxWord 0 = some 5000#32 ∧ s.rxw (0 + 1) = false ∧
      s.markInWindow .pktPrefix 5000#32 ∧ ¬ s.markInWindow .one 5000#32) := by
  refine ⟨⟨fun _ => by decide, fun _ => by decide⟩, ⟨fun _ => by decide, fun h => ?_⟩,
    ⟨fun h => ?_, fun h => ?_⟩, by decide, by decide⟩
  · exact absurd h (by decide)
  · exact absurd h (by decide)
  · exact absurd h (by decide)

/-- A pair inside PREFIX's windows at their lower ends, and one a microsecond outside. Then an unwritten mark,
and an unwritten space after a mark that is inside PREFIX's window and outside ONE's. -/
theorem witness_RxExpectConsumesOnMatch :
    (st0.loaded [3750, -450]).pairWritten 0 ∧ (st0.loaded [3750, -450]).pairInWindow .pktPrefix 0 ∧
    (st0.loaded [3749, -450]).pairWritten 0 ∧ ¬ (st0.loaded [3749, -450]).pairInWindow .pktPrefix 0 ∧
    (let s : State := { st0 with rxLen := 1#32 };
      s.rxPos.toNat < s.rxLen.toNat ∧ s.rxw s.rxPos.toNat = false) ∧
    (let s : State := { st0.loaded [5000] with rxLen := 2#32 };
      s.rxPos.toNat + 1 < s.rxLen.toNat ∧ s.rxWord s.rxPos.toNat = some 5000#32 ∧
      s.rxw (s.rxPos.toNat + 1) = false ∧
      s.markInWindow .pktPrefix 5000#32 ∧ ¬ s.markInWindow .one 5000#32) := by
  refine ⟨⟨fun _ => by decide, fun _ => by decide⟩,
    ⟨by decide, 3750#32, BitVec.ofInt 32 (-450), by decide⟩, ⟨fun _ => by decide, fun _ => by decide⟩, ?_,
    by decide, by decide⟩
  rintro ⟨_, m, sp, hm, _, _, hlo, _⟩
  have e : (st0.loaded [3749, -450]).rxWord 0 = some 3749#32 := by decide
  rw [e] at hm
  injection hm with hm
  subst hm
  exact absurd hlo (by decide)

/-- The clauses of RX_EXPECT about unwritten samples: a mark never written, and a space never written after a
mark inside PREFIX's window, which faults, and after one outside ONE's, which completes. -/
theorem test_rxExpect_unwritten :
    exec (.rxExpect .one) { st0 with rxLen := 1#32 } = .fault (.unwrittenSample 0) ∧
    exec (.rxExpect .pktPrefix) { st0.loaded [5000] with rxLen := 2#32 } = .fault (.unwrittenSample 1) ∧
    after (exec (.rxExpect .one) { st0.loaded [5000] with rxLen := 2#32 }) (fun t => (t.matched, t.rxPos))
      = some (false, 0#32) := ⟨rfl, rfl, by decide⟩

/-- st0 with a stream of n samples, of which only these first ones were ever written. -/
def partly (vs : List Int) (n : Word) : State := { st0.loaded vs with rxLen := n }

theorem partly_rxWord (vs : List Int) (n : Word) (i : Nat) :
    (partly vs n).rxWord i = (st0.storeFrom 0 vs).rxWord i := rfl

/-- An unwritten mark at the highest offset, an unwritten space after a mark that matches, for each command;
and a step that faults. -/
theorem witness_UnwrittenSampleFaults :
    (partly [] 256#32).pairFaultsAt .zero ((partly [] 256#32).rxPos.toNat + 255) 255 ∧
    (partly [7, 290] 3#32).pairFaultsAt .zero ((partly [7, 290] 3#32).rxPos.toNat + 1) 2 ∧
    (partly [] 1#32).pairFaultsAt .one (partly [] 1#32).rxPos.toNat 0 ∧
    (partly [600] 2#32).pairFaultsAt .one (partly [600] 2#32).rxPos.toNat 1 ∧
    (partly [] 1#32).pairFaultsAt .pktPrefix (partly [] 1#32).rxPos.toNat 0 ∧
    (partly [5000] 2#32).pairFaultsAt .pktPrefix (partly [5000] 2#32).rxPos.toNat 1 ∧
    ((partly [5000] 856#32).cfg.minRxSamples ≤ (partly [5000] 856#32).rxLen.toNat ∧
      132 ≤ (partly [5000] 856#32).rxLen.toNat ∧ (partly [5000] 856#32).pairFaultsAt .pktPrefix 0 1) ∧
    step { issuing [.write 0 4 0x0000000A#32] with rxLen := 1#32 } = .fault (.unwrittenSample 0) :=
  ⟨⟨by decide +kernel, by decide +kernel, .inl rfl⟩, pairMatch_error_iff.1 rfl, pairMatch_error_iff.1 rfl,
    pairMatch_error_iff.1 rfl, pairMatch_error_iff.1 rfl, pairMatch_error_iff.1 rfl,
    ⟨by decide +kernel, by decide +kernel, pairMatch_error_iff.1 rfl⟩,
    (step_write rfl rfl rfl).trans rfl⟩

theorem witness_OnlyFaultIsUnwrittenSample :
    exec .rxPkt { st0 with rxLen := 1#32 } = .fault (.unwrittenSample 0) := rfl

/-- A written stream that is not empty. -/
theorem written_frame : (st0.loaded (render (frameSeq cfg0 recStop))).streamWritten :=
  streamIs_written (loaded_streamIs (frame_short _))

theorem witness_CommandsCompleteOnWrittenStream :
    (st0.loaded (render (frameSeq cfg0 recStop))).streamWritten ∧
    (st0.loaded (render (frameSeq cfg0 recStop))).rxLen.toNat = 856 :=
  ⟨written_frame, by rw [loaded_rxLen (frame_short _), frame856]⟩

/-- The samples of 132 or fewer, as a stream. -/
theorem packet_streamIs (vs : List Int) (h : vs.length ≤ 132) : (st0.loaded vs).streamIs 0 vs :=
  loaded_streamIs (by omega)

theorem decodePacket_of_list {vs : List Int} {r : Parse} {n : Nat} (h : vs.length ≤ 132)
    (e : listPacket 25#7 vs = (r, n)) : (st0.loaded vs).decodePacket 0 = .ok (r, n) := by
  rw [(decodePacket_list (packet_streamIs vs h)).1, loaded_tol, show st0.tol = 25#7 from rfl, e, Nat.zero_add]

theorem packet_length (p : PacketWord) : (render (pulseSeq p)).length = 132 := by
  rw [render_length, pulseSeq_length]

/-- Each of DecodePacket's exits is taken: no prefix, the last bit bad, no suffix, a whole packet. -/
theorem test_decodePacket_exits :
    (st0.loaded [600, -275]).decodePacket 0 = .ok (.absent .noPrefix, 0) ∧
    (st0.loaded ((render (pulseSeq pktStop)).set 128 1000)).decodePacket 0 = .ok (.absent .badBit, 128) ∧
    (st0.loaded ((render (pulseSeq pktStop)).take 131)).decodePacket 0 = .ok (.absent .noSuffix, 130) ∧
    (st0.loaded (render (pulseSeq pktStop))).decodePacket 0 = .ok (.ok recStop, 132) :=
  ⟨decodePacket_of_list (by decide) (by decide +kernel),
    decodePacket_of_list (by rw [List.length_set, packet_length]) (by decide +kernel),
    decodePacket_of_list (by rw [List.length_take, packet_length]; omega) (by decide +kernel),
    decodePacket_of_list (by rw [packet_length]) listPacket_stop⟩

/-- A pair of a loaded list lies in a template's windows when Match over the rest of the list says so. -/
theorem inWindow_of_list {vs : List Int} {t : Template} {n : Nat} (h : vs.length ≤ 132) (hn : n ≤ vs.length) :
    (st0.loaded vs).pairInWindow t n ↔ listMatch 25#7 t (vs.drop n) = true := by
  have hs := streamIs_drop (packet_streamIs vs h) hn
  rw [Nat.zero_add] at hs
  rw [pairInWindow_list t hs, loaded_tol]
  rfl

/-- A pair of a loaded list misses when Match over the rest of the list says so. -/
theorem misses_of_list {vs : List Int} {t : Template} {n : Nat} (h : vs.length ≤ 132) (hn : n ≤ vs.length) :
    (st0.loaded vs).pairMisses t n ↔ listMatch 25#7 t (vs.drop n) = false := by
  have hs := streamIs_drop (packet_streamIs vs h) hn
  rw [Nat.zero_add] at hs
  rw [← pairMatch_false_iff, pairMatch_list t hs, loaded_tol, Except.ok.injEq]
  rfl

/-- Samples beyond a pair, written or not, do not change what Match answers there. -/
theorem pairMatch_partly {vs : List Int} {t : Template} {p : Nat} {n : Word} (hl : vs.length ≤ 132)
    (hp : p + 1 < vs.length) (hn : vs.length ≤ n.toNat) :
    (partly vs n).pairMatch t p = (st0.loaded vs).pairMatch t p := by
  have e : (st0.loaded vs).rxLen.toNat = vs.length := loaded_rxLen (by omega)
  unfold State.pairMatch State.markMatch State.spaceMatch
  rw [e, show (partly vs n).rxLen = n from rfl, if_pos (by omega), if_pos (by omega), if_pos (by omega),
    if_pos hp]
  rfl

/-- V4n: sample 131, the space of the suffix, was never written. -/
def stV4n : State := partly ((render (pulseSeq pktStop)).take 131) 132#32

/-- Every pair of V4n before the suffix matches as it should, and the suffix's space is unwritten. -/
theorem v4n_pairs : stV4n.pairInWindow .pktPrefix 0 ∧
    (∀ k, k < 64 → stV4n.pairInWindow .one (0 + 2 + 2 * k) ∨
      (stV4n.pairMisses .one (0 + 2 + 2 * k) ∧ stV4n.pairInWindow .zero (0 + 2 + 2 * k))) ∧
    stV4n.pairFaultsAt .pktSuffix (0 + 130) 131 := by
  have l : ((render (pulseSeq pktStop)).take 131).length = 131 := by rw [List.length_take, packet_length]; rfl
  have key (t : Template) (p : Nat) (hp : p < 130) :
      stV4n.pairMatch t p = .ok (listMatch 25#7 t (((render (pulseSeq pktStop)).take 131).drop p)) := by
    have hs := streamIs_drop (packet_streamIs _ (by omega)) (show p ≤ ((render (pulseSeq pktStop)).take 131).length by omega)
    rw [Nat.zero_add] at hs
    rw [stV4n, pairMatch_partly (by omega) (by omega) (by rw [l]; decide), pairMatch_list t hs, loaded_tol]
    rfl
  refine ⟨?_, fun k hk => ?_, by decide +kernel, ?_, .inr ⟨rfl, BitVec.ofInt 32 600, ?_, by decide +kernel⟩⟩
  · rw [← pairMatch_true_iff, key _ _ (by omega), Except.ok.injEq]
    decide +kernel
  · rw [← pairMatch_true_iff, ← pairMatch_true_iff, ← pairMatch_false_iff, key _ _ (by omega),
      key _ _ (by omega), Except.ok.injEq, Except.ok.injEq, Except.ok.injEq]
    revert k
    decide +kernel
  · rw [State.rxw, stV4n, partly_rxWord, storeFrom_above (by omega)]
    rfl
  · rw [stV4n, partly_rxWord]
    exact storeFrom_holds st0 0 _ 130 600 (by decide +kernel)

/-- The hypotheses of the clauses that complete: no prefix, a bad bit at index 63 (sample 128 set to 1000)
after 63 good ones, a missing suffix, and a whole packet, whose word is pktStop. -/
theorem witness_DecodePacketFollowsItsSteps :
    (st0.loaded [600, -275]).pairMisses .pktPrefix 0 ∧
    (let s := st0.loaded ((render (pulseSeq pktStop)).set 128 1000);
      s.pairInWindow .pktPrefix 0 ∧
      (∀ k, k < 63 → s.pairInWindow .one (0 + 2 + 2 * k) ∨
        (s.pairMisses .one (0 + 2 + 2 * k) ∧ s.pairInWindow .zero (0 + 2 + 2 * k))) ∧
      s.pairMisses .one (0 + 2 + 2 * 63) ∧ s.pairMisses .zero (0 + 2 + 2 * 63)) ∧
    (st0.loaded ((render (pulseSeq pktStop)).take 131)).pairMisses .pktSuffix (0 + 130) ∧
    (let s := st0.loaded (render (pulseSeq pktStop));
      s.pairInWindow .pktPrefix 0 ∧
      (∀ k, k < 64 → if pktStop.getLsbD (63 - k) then s.pairInWindow .one (0 + 2 + 2 * k)
        else s.pairMisses .one (0 + 2 + 2 * k) ∧ s.pairInWindow .zero (0 + 2 + 2 * k)) ∧
      s.pairInWindow .pktSuffix (0 + 130)) := by
  have l1 : ((render (pulseSeq pktStop)).set 128 1000).length = 132 := by rw [List.length_set, packet_length]
  have l2 : ((render (pulseSeq pktStop)).take 131).length = 131 := by rw [List.length_take, packet_length]; rfl
  have l3 := packet_length pktStop
  refine ⟨?_, ⟨?_, fun k hk => ?_, ?_, ?_⟩, ?_, ⟨?_, fun k hk => ?_, ?_⟩⟩
  · rw [misses_of_list (by decide) (by decide)]
    decide
  · rw [inWindow_of_list (by omega) (by omega)]
    decide +kernel
  · rw [inWindow_of_list (by omega) (by omega), misses_of_list (by omega) (by omega),
      inWindow_of_list (by omega) (by omega)]
    revert k
    decide +kernel
  · rw [misses_of_list (by omega) (by omega)]
    decide +kernel
  · rw [misses_of_list (by omega) (by omega)]
    decide +kernel
  · rw [misses_of_list (by omega) (by omega)]
    decide +kernel
  · rw [inWindow_of_list (by omega) (by omega)]
    decide +kernel
  · rw [inWindow_of_list (by omega) (by omega), misses_of_list (by omega) (by omega),
      inWindow_of_list (by omega) (by omega)]
    revert k
    decide +kernel
  · rw [inWindow_of_list (by omega) (by omega)]
    decide +kernel

/-- The hypotheses of the clauses that fault: an unwritten prefix mark; a bit whose mark is unwritten, and one
whose mark is ZERO's and whose space is unwritten, both at index 0; and V4n's suffix. -/
theorem witness_DecodePacketFaults :
    (partly [] 132#32).pairFaultsAt .pktPrefix 0 0 ∧
    ((partly [5000, -600] 132#32).pairInWindow .pktPrefix 0 ∧
      (partly [5000, -600] 132#32).pairFaultsAt .one (0 + 2 + 2 * 0) 2) ∧
    ((partly [5000, -600, 290] 132#32).pairInWindow .pktPrefix 0 ∧
      (partly [5000, -600, 290] 132#32).pairMisses .one (0 + 2 + 2 * 0) ∧
      (partly [5000, -600, 290] 132#32).pairFaultsAt .zero (0 + 2 + 2 * 0) 3) ∧
    (stV4n.pairInWindow .pktPrefix 0 ∧
      (∀ k, k < 64 → stV4n.pairInWindow .one (0 + 2 + 2 * k) ∨
        (stV4n.pairMisses .one (0 + 2 + 2 * k) ∧ stV4n.pairInWindow .zero (0 + 2 + 2 * k))) ∧
      stV4n.pairFaultsAt .pktSuffix (0 + 130) 131) :=
  ⟨pairMatch_error_iff.1 rfl, ⟨pairMatch_true_iff.1 rfl, pairMatch_error_iff.1 rfl⟩,
    ⟨pairMatch_true_iff.1 rfl, pairMatch_false_iff.1 rfl, pairMatch_error_iff.1 rfl⟩, v4n_pairs⟩

/-- The parser's last read, as a lemma about any state: run on V4n's by evaluation it would cost the kernel far
more. -/
theorem decodePacket_suffix_fault {s : State} {p i : Nat} (hp : s.pairInWindow .pktPrefix p)
    (hb : ∀ k, k < pktBits → s.pairInWindow .one (p + 2 + 2 * k) ∨
      (s.pairMisses .one (p + 2 + 2 * k) ∧ s.pairInWindow .zero (p + 2 + 2 * k)))
    (he : s.pairFaultsAt .pktSuffix (p + 2 + 2 * pktBits) i) :
    s.decodePacket p = .error (.unwrittenSample i) := by
  obtain ⟨acc, e⟩ := decodeBits_after (acc := 0#64) (Nat.le_refl pktBits) hb
  rw [Nat.sub_self, State.decodeBits.eq_1] at e
  rw [State.decodePacket, pairMatch_true_iff.2 hp]
  simp only [e, State.decodeEnd, pairMatch_error_iff.2 he]

theorem rxPkt_fault {s : State} {p : Nat} {f : Fault} (hp : s.rxPos.toNat = p) (h : s.decodePacket p = .error f) :
    exec .rxPkt s = .fault f := by
  rw [exec, execRxPkt, hp, h]
  rfl

/-- V4n: the fault is at sample 131, in the parser and in the command. -/
theorem test_rxPkt_V4n : stV4n.decodePacket 0 = .error (.unwrittenSample 131) ∧
    exec .rxPkt stV4n = .fault (.unwrittenSample 131) :=
  have h := decodePacket_suffix_fault v4n_pairs.1 v4n_pairs.2.1 v4n_pairs.2.2
  ⟨h, rxPkt_fault rfl h⟩

/-- A packet that decodes, one that is absent, V4n, and 132 written samples. -/
theorem witness_RxPktPublishesDecodedPacket :
    (let s := st0.loaded (render (pulseSeq pktStop));
      s.rxPos.toNat = 0 ∧ s.decodePacket 0 = .ok (.ok recStop, 132) ∧
      ∀ i, 0 ≤ i → i < 0 + 132 → i < s.rxLen.toNat → s.rxw i = true) ∧
    (let s := st0.loaded [600, -275]; s.rxPos.toNat = 0 ∧ s.decodePacket 0 = .ok (.absent .noPrefix, 0)) ∧
    stV4n.rxPos.toNat = 0 ∧ stV4n.decodePacket 0 = .error (.unwrittenSample 131) :=
  ⟨⟨rfl, test_decodePacket_exits.2.2.2,
      fun i _ _ h => streamIs_written (packet_streamIs _ (by rw [packet_length])) i h⟩,
    ⟨rfl, test_decodePacket_exits.1⟩, rfl, test_rxPkt_V4n.1⟩

/-- At tolerance 0 and at tolerance 100. -/
theorem witness_ExactPulsesDecodeAtEveryTolerance (t : BitVec 7) (ht : t = 0#7 ∨ t = 100#7) :
    let s : State := ({ st0 with tol := t } : State).loaded (render (pulseSeq pktStop))
    s.tol.toNat ≤ 100 ∧ 0 + 132 ≤ s.rxLen.toNat ∧ s.rxPos.toNat = 0 ∧
    packWord recStop.device recStop.channel recStop.command = pktStop ∧
    s.holdsSamples 0 (render (pulseSeq pktStop)) := by
  intro s
  refine ⟨?_, ?_, rfl, by decide, loaded_holds _ _⟩
  · rw [loaded_tol]
    rcases ht with rfl | rfl <;> decide
  · rw [loaded_rxLen (by rw [packet_length]; omega), packet_length]

/-- A pair in ONE's windows at the highest tolerance the statement admits. -/
theorem witness_BitTemplatesDisjointUpTo37 :
    (({ st0 with tol := 37#7 } : State).loaded [378, -376]).tol.toNat ≤ 37 ∧
    (({ st0 with tol := 37#7 } : State).loaded [378, -376]).pairMatch .one 0 = .ok true :=
  ⟨by decide, rfl⟩

/-- Two states that differ in a sample outside p .. p + 131. -/
theorem witness_DecodePacketReadsOnly132Samples :
    ∀ i, 5 ≤ i → i < 5 + 132 → (st0.storeRx 4 1#32).rxWord i = st0.rxWord i :=
  fun i h _ => rxWord_storeRx_of_ne (by omega)

/-- One sample short; a stream of exactly MIN_RX_SAMPLES completes (test_rxFrame_clean). -/
theorem witness_RxFrameShortReadsNothing :
    ({ st0 with rxLen := 855#32 } : State).rxLen.toNat < ({ st0 with rxLen := 855#32 } : State).cfg.minRxSamples := by
  decide

/-- Each kind of scan step: a valid packet, a packet with a bad checksum, a nudge, a skip; and each that
faults: in the packet, in the test at p, in the test at p + 1. -/
theorem witness_ScanStepPacketThenNudgeThenSkip :
    ((st0.loaded (render (pulseSeq pktStop))).pairInWindow .pktPrefix Scan.start.pos ∧
      (st0.loaded (render (pulseSeq pktStop))).decodePacket Scan.start.pos = .ok (.ok recStop, 132)) ∧
    ((st0.loaded (render (pulseSeq 0xA3123456010023C1#64))).pairInWindow .pktPrefix Scan.start.pos ∧
      (st0.loaded (render (pulseSeq 0xA3123456010023C1#64))).decodePacket Scan.start.pos
        = .ok (.absent .badCksum, 132)) ∧
    ((st0.loaded [7, 5000, -600]).pairMisses .pktPrefix Scan.start.pos ∧
      (st0.loaded [7, 5000, -600]).pairInWindow .pktPrefix (Scan.start.pos + 1)) ∧
    ((st0.loaded [290, -600, 290, -600]).pairMisses .pktPrefix Scan.start.pos ∧
      (st0.loaded [290, -600, 290, -600]).pairMisses .pktPrefix (Scan.start.pos + 1)) ∧
    ((partly [5000, -600] 132#32).pairInWindow .pktPrefix Scan.start.pos ∧
      (partly [5000, -600] 132#32).decodePacket Scan.start.pos = .error (.unwrittenSample 2)) ∧
    (partly [] 132#32).pairFaultsAt .pktPrefix Scan.start.pos 0 ∧
    ((partly [7] 132#32).pairMisses .pktPrefix Scan.start.pos ∧
      (partly [7] 132#32).pairFaultsAt .pktPrefix (Scan.start.pos + 1) 1) := by
  have pm (p : PacketWord) : (st0.loaded (render (pulseSeq p))).pairInWindow .pktPrefix 0 := by
    rw [pairInWindow_list _ (packet_streamIs _ (by rw [packet_length])), loaded_tol]
    rfl
  exact ⟨⟨pm _, test_decodePacket_exits.2.2.2⟩,
    ⟨pm _, decodePacket_of_list (by rw [packet_length]) (by decide +kernel)⟩,
    ⟨pairMatch_false_iff.1 rfl, pairMatch_true_iff.1 rfl⟩, ⟨pairMatch_false_iff.1 rfl, pairMatch_false_iff.1 rfl⟩,
    ⟨pairMatch_true_iff.1 rfl, rfl⟩, pairMatch_error_iff.1 rfl,
    ⟨pairMatch_false_iff.1 rfl, pairMatch_error_iff.1 rfl⟩⟩

/-- A written stream of exactly MIN_RX_SAMPLES, and the run of the unbounded loop over it; and a stream of that
length on which the loop faults, in its second step. -/
theorem witness_RxFrameIsTheWhileLoop :
    (st0.loaded (render (frameSeq cfg0 recStop))).streamWritten ∧
    (st0.loaded (render (frameSeq cfg0 recStop))).cfg.minRxSamples
      ≤ (st0.loaded (render (frameSeq cfg0 recStop))).rxLen.toNat ∧
    (st0.loaded (render (frameSeq cfg0 recStop))).ScanRuns Scan.start
      { pos := 824, first := some recStop, pkts := 6, bad := 0, skips := 16, nudges := 0 } ∧
    (partly [290, -600] 856#32).cfg.minRxSamples ≤ (partly [290, -600] 856#32).rxLen.toNat ∧
    (partly [290, -600] 856#32).ScanFaults Scan.start (.unwrittenSample 2) := by
  refine ⟨written_frame, by rw [loaded_cfg, loaded_rxLen (frame_short _), frame856]; decide, ?_, by decide +kernel,
    .step _ Scan.start.skip _ (by decide +kernel) rfl (.here _ _ (by decide +kernel) rfl)⟩
  refine scanRuns_of_scanLoop (n := 856) ?_ (by rw [loaded_rxLen (frame_short _), frame856]; decide)
  rw [scanLoop_list 856 Scan.start (loaded_streamIs (frame_short _)), loaded_tol, show st0.tol = 25#7 from rfl,
    test_scan.1]

theorem witness_RxFrameStopsWithinStream :
    (st0.loaded (render (frameSeq cfg0 recStop))).cfg.minRxSamples
      ≤ (st0.loaded (render (frameSeq cfg0 recStop))).rxLen.toNat ∧
    ∃ t, exec .rxFrame (st0.loaded (render (frameSeq cfg0 recStop))) = .next t ∧ t.valid = true :=
  ⟨witness_RxFrameIsTheWhileLoop.2.1, _, test_rxFrame_clean, rfl⟩

/-- The clean frames of STOP and of UP at tolerance 94. -/
theorem witness_CleanFrameDecodes :
    let s (r : Record) : State := ({ st0 with tol := 94#7 } : State).loaded (render (frameSeq cfg0 r))
    (∀ r, (s r).cfg = cfg0 ∧ cfg0.minRxSamples = 856 ∧ (s r).tol.toNat ≤ 94 ∧
      (s r).holdsSamples 0 (render (frameSeq cfg0 r))) ∧
    (s recStop).rxLen.toNat = 64 + 792 * 1 ∧ (s recUp).rxLen.toNat = 64 + 792 * 2 ∧
    ¬ (recStop.command = cfg0.cmdUp ∨ recStop.command = cfg0.cmdDown) ∧ recUp.command = cfg0.cmdUp := by
  intro s
  refine ⟨fun r => ⟨loaded_cfg _ _, rfl, ?_, loaded_holds _ _⟩, ?_, ?_, by decide, rfl⟩
  · rw [loaded_tol]
    exact Nat.le_refl 94
  · rw [loaded_rxLen (frame_short _), frame856]
  · rw [loaded_rxLen (frame_short _), frame1648]

/-- The frame of UP with −2^31 put before its last packet, and that of STOP with 5000 before its first. -/
theorem witness_ExtraSampleBeforePrefixIsRecovered (r : Record) (j : Nat) (x : Int) (b : Nat)
    (h : (r, j, x, b) ∈ [(recStop, 0, 5000, 1), (recUp, 11, -2 ^ 31, 2)]) :
    let clean := render (frameSeq cfg0 r)
    let vs := clean.take (32 + 132 * j) ++ [x] ++ clean.drop (32 + 132 * j)
    let s : State := ({ st0 with tol := 94#7 } : State).loaded vs
    s.cfg = cfg0 ∧ cfg0.minRxSamples = 856 ∧ s.tol.toNat ≤ 94 ∧
    b = (if r.command = cfg0.cmdUp ∨ r.command = cfg0.cmdDown then 2 else 1) ∧ j < 6 * b ∧
    s.rxLen.toNat = 65 + 792 * b ∧ s.holdsSamples 0 vs := by
  intro clean vs s
  have key : vs.length = 65 + 792 * b ∧ j < 6 * b ∧
      b = (if r.command = cfg0.cmdUp ∨ r.command = cfg0.cmdDown then 2 else 1) := by
    simp only [List.mem_cons, Prod.mk.injEq, List.not_mem_nil, or_false] at h
    rcases h with ⟨rfl, rfl, rfl, rfl⟩ | ⟨rfl, rfl, rfl, rfl⟩
    · refine ⟨?_, by decide, rfl⟩
      simp only [vs, clean, List.length_append, List.length_take, List.length_drop, frame856]
      rfl
    · refine ⟨?_, by decide, rfl⟩
      simp only [vs, clean, List.length_append, List.length_take, List.length_drop, frame1648]
      rfl
  refine ⟨loaded_cfg _ _, rfl, ?_, key.2.2, key.2.1, ?_, loaded_holds _ _⟩
  · rw [loaded_tol]
    exact Nat.le_refl 94
  · rw [loaded_rxLen (by rw [key.1, key.2.2]; split <;> omega), key.1]

theorem witness_UpDownFrameCarriesRelease :
    let s : State := ({ st0 with tol := 100#7 } : State).loaded (render (frameSeq cfg0 recUp))
    s.cfg = cfg0 ∧ s.tol.toNat ≤ 100 ∧ recUp.command = cfg0.cmdUp ∧ s.rxLen.toNat = 1648 ∧
    s.holdsSamples 0 (render (frameSeq cfg0 recUp)) ∧ 11 < 12 := by
  intro s
  refine ⟨loaded_cfg _ _, ?_, rfl, ?_, loaded_holds _ _, by omega⟩
  · rw [loaded_tol]
    exact Nat.le_refl 100
  · rw [loaded_rxLen (frame_short _), frame1648]

/-- UNPACK ends both ways; RX_PKT and RX_FRAME complete above. -/
theorem witness_AbsentResultExposesNothing :
    (∃ t, exec .unpack (withPkt pktStop) = .next t ∧ t.valid = true) ∧
    ∃ t, exec .unpack (withPkt 0#64) = .next t ∧ t.valid = false :=
  ⟨⟨_, rfl, rfl⟩, ⟨_, rfl, rfl⟩⟩

/-- TX_FRAME writes the registers of its clauses. -/
theorem witness_RegistersHaveTheirWriters :
    ∃ t, exec .txFrame (withInput recStop) = .next t ∧ t.txHint = 428#32 := ⟨_, rfl, by decide +kernel⟩

theorem witness_CommandsNeverWriteSamples :
    (withInput recStop).cfg.Valid ∧ ∃ t, exec .txFrame (withInput recStop) = .next t := ⟨cfg0_valid, _, rfl⟩

/-- Another memory that agrees on the samples of the stream, under legal parameters. -/
theorem witness_ResultDependsOnRegistersAndSamples :
    ∀ j, j < (st0.loaded [7, 8]).rxLen.toNat →
      ({ st0.loaded [7, 8] with mem := ((st0.loaded [7, 8]).storeRx 2 9#32).mem } : State).rxWord j
        = (st0.loaded [7, 8]).rxWord j := by
  intro j hj
  have : j < 2 := hj
  exact rxWord_storeRx_of_ne (s := st0.loaded [7, 8]) (by omega)

/-- A state with a sample, an emitted pair and a pending read meets the invariant. -/
theorem witness_EveryStepKeepsInvariant :
    let s : State := { (st0.storeRx 0 5#32).txAppend 290#32 600#32 with host := [.read 4 4] }
    s.Inv ∧ ∃ t, step s = .next t := by
  intro s
  refine ⟨⟨cfg0_valid, by decide, ?_, by decide, by decide, by decide, rfl, ?_, fun _ => rfl, .inl rfl, .inl rfl,
    Nat.zero_le _⟩, _, step_read rfl rfl rfl⟩
  · intro c hc
    rcases mem_storeWord hc with hc | hc
    · rcases mem_storeWord hc with hc | hc
      · rcases mem_storeWord hc with hc | hc
        · exact absurd hc (List.not_mem_nil)
        · exact .inl ⟨hc.1, Nat.lt_of_lt_of_le hc.2 (by decide)⟩
      · exact .inr ⟨hc.1, Nat.lt_of_lt_of_le hc.2 (by decide)⟩
    · exact .inr ⟨Nat.le_trans (by decide) hc.1, Nat.lt_of_lt_of_le hc.2 (by decide)⟩
  · intro j hj
    have : j < 1 := hj
    obtain rfl : j = 0 := by omega
    exact ⟨.zero, by decide⟩

end Sys2Proof.Tests
end

section
/-! Absent results (00_scope.md R12): the record-producing commands UNPACK, RX_PKT and RX_FRAME all end by
publishing a parse, and no parse they publish is absent with the code of success. -/
namespace Sys2Proof.Machine

/-- A parse that, when absent, says why: its code is not that of success (60_exceptions.md R251). -/
def Parse.Explained (p : Parse) : Prop := p ≠ .absent .none

@[simp] theorem Parse.explained_ok (r : Record) : Parse.Explained (.ok r) := Parse.noConfusion

@[simp] theorem Parse.explained_absent (c : ErrCode) : Parse.Explained (.absent c) ↔ c ≠ .none := by
  simp [Parse.Explained]

/-- A command that read samples answers a state only by a value it read. -/
theorem afterRead_next {α : Type} {r : Except Fault α} {k : α → State} {t : State}
    (h : afterRead r k = .next t) : ∃ a, r = .ok a ∧ t = k a := by
  cases r with
  | error f => simp [afterRead] at h
  | ok a => exact ⟨a, rfl, by simpa [afterRead] using h.symm⟩

/-! ### Every parse is explained -/

theorem validate_explained (p : PacketWord) : (validate p).Explained := by
  unfold validate
  split
  · simp
  · split <;> simp

theorem decodeEnd_explained {s : State} {p q : Nat} {acc : PacketWord} {r : Parse}
    (h : s.decodeEnd p acc = .ok (r, q)) : r.Explained := by
  rcases decodeEnd_stops h with ⟨_, rfl⟩ | ⟨_, rfl, _⟩
  · simp
  · exact validate_explained acc

theorem decodePacket_explained {s : State} {p q : Nat} {r : Parse} (h : s.decodePacket p = .ok (r, q)) :
    r.Explained := by
  unfold State.decodePacket at h
  split at h
  case h_1 => simp at h
  case h_2 =>
    obtain ⟨rfl, -⟩ : .absent .noPrefix = r ∧ p = q := by simpa using h
    simp
  case h_3 =>
    split at h
    case h_1 => simp at h
    case h_2 _ stop _ =>
      obtain ⟨rfl, -⟩ : .absent .badBit = r ∧ stop = q := by simpa using h
      simp
    case h_3 => exact decodeEnd_explained h

theorem firstResult_explained (first : Option Record) : (firstResult first).Explained := by
  cases first <;> simp [firstResult]

/-! ### The record-producing commands end by publishing -/

/-- A state that publishing an explained parse leaves. -/
def State.EndsPublishing (t : State) : Prop := ∃ (u : State) (p : Parse), p.Explained ∧ t = u.publish p

theorem execUnpack_publishes {s t : State} (h : execUnpack s = .next t) : t.EndsPublishing :=
  ⟨s, validate s.pkt, validate_explained _, by simpa [execUnpack] using h.symm⟩

theorem execRxPkt_publishes {s t : State} (h : execRxPkt s = .next t) : t.EndsPublishing := by
  obtain ⟨⟨p, q⟩, hread, rfl⟩ := afterRead_next h
  exact ⟨s.setRxPos q, p, decodePacket_explained hread, rfl⟩

theorem execRxFrame_publishes {s t : State} (h : execRxFrame s = .next t) : t.EndsPublishing := by
  unfold execRxFrame at h
  split at h
  case isTrue => exact ⟨_, .absent .short, by simp, by simpa using h.symm⟩
  case isFalse =>
    obtain ⟨c, -, rfl⟩ := afterRead_next h
    exact ⟨_, firstResult c.first, firstResult_explained _, rfl⟩

/-- What the host reads after an explained parse is published: the `@[simp]` laws of `publish` in each of its
two cases. -/
theorem publish_exposes {u : State} {p : Parse} (hp : p.Explained) :
    ((u.publish p).valid = true ∧ (u.publish p).err = .none) ∨
    ((u.publish p).valid = false ∧ (u.publish p).err ≠ .none ∧ (u.publish p).rxDevice = 0#24 ∧
      (u.publish p).rxChannel = 0#16 ∧ (u.publish p).rxCommand = 0#8) := by
  cases p with
  | ok r => left; simp
  | absent c => right; simpa using hp

/-- Settles O52: each of the three commands ends by publishing an explained parse. -/
theorem absentResultExposesNothing : Obligations.AbsentResultExposesNothing := by
  unfold Obligations.AbsentResultExposesNothing
  intro i s t hi h
  have hpub : t.EndsPublishing := by
    rcases hi with rfl | rfl | rfl
    · exact execUnpack_publishes h
    · exact execRxPkt_publishes h
    · exact execRxFrame_publishes h
  obtain ⟨u, p, hp, rfl⟩ := hpub
  exact publish_exposes hp

end Sys2Proof.Machine
end

section
/-! The register file (10_state.md section 3): what a register read and a register write do, by register, and
what each register holds after reset. -/
namespace Sys2Proof.Machine

/-! ### After reset -/

theorem reset_readReg (r : Reg) : State.reset.readReg r = if r = .tol then 25#32 else 0#32 := by
  cases r <;> rfl

/-- Settles O1: no register but TOL is nonzero, and the memory that comes out of reset lists no byte. -/
theorem resetReadsZeroExceptTol : Obligations.ResetReadsZeroExceptTol :=
  ⟨reset_readReg, fun _ => rfl⟩

/-- The parameters after reset are legal, whatever the free command codes are: codes that are not distinct are
replaced (00_scope.md R7). -/
theorem default_valid : Params.default.Valid := by
  refine ⟨?_, by decide, by decide, by decide, by decide⟩
  by_cases free : Config.distinctCodes (Config.openCode 0) (Config.openCode 1) (Config.openCode 2)
      (Config.openCode 3)
  · simp only [Params.default, free, if_true]
  · simp only [Params.default, free, if_false]
    decide

/-- Settles O57: legal parameters, an empty memory, every register 0 and TOL within its bound. -/
theorem resetMeetsInvariant : Obligations.ResetMeetsInvariant where
  cfg_valid := default_valid
  mem_wf := reset_mem_wf
  mem_inBuffers := fun _ hc => absurd hc List.not_mem_nil
  rxLen_le := Nat.zero_le _
  txCount_le := Nat.zero_le _
  tol_le := by decide
  not_busy := rfl
  emitted := fun j hj => absurd hj (Nat.not_lt_zero j)
  absent_zero := fun _ => rfl
  txHint_range := .inl rfl
  txPkts_range := .inl rfl
  counters_le := Nat.zero_le _

/-! ### Register accesses of the host -/

/-- An address whose low bits are a register's offset is aligned. -/
theorem aligned_of_offset {addr : Nat} {r : Reg} (h : addr % 2 ^ 26 = r.offset) : addr % 4 = 0 := by
  have := (offset_lt r).2
  omega

theorem readReg_withHost (s : State) (rest : List HostOp) (q : Reg) :
    ({ s with host := rest } : State).readReg q = s.readReg q := by
  cases q <;> rfl

/-- A register read answers the register's field and changes nothing but the answered word. -/
theorem step_readReg {s : State} {rest : List HostOp} {addr : Nat} {r : Reg}
    (h : s.host = .read addr 4 :: rest) (ha : addr % 2 ^ 26 = r.offset) (hb : s.busy = false) :
    step s = .next { s with host := rest, busData := some (s.readReg r) } := by
  rw [step_read h hb (aligned_of_offset ha), ha, readWindow_reg, readReg_withHost]

/-- A register write does to the state what `writeReg` says. -/
theorem step_writeReg {s : State} {rest : List HostOp} {addr : Nat} {r : Reg} {v : Word}
    (h : s.host = .write addr 4 v :: rest) (ha : addr % 2 ^ 26 = r.offset) (hb : s.busy = false)
    (hr : r ≠ .cmd) : step s = .next (({ s with host := rest } : State).writeReg r v) := by
  rw [step_write h hb (aligned_of_offset ha), ha, writeWindow_reg v hr]

/-! ### What a register read answers -/

/-- STATUS as a number: VALID at bit 0, MATCH at bit 1, ERR from bit 8 on (10_state.md R24). -/
theorem statusWord_toNat {s : State} (hb : s.busy = false) :
    s.statusWord.toNat = s.valid.toNat + 2 * s.matched.toNat + 256 * s.err.code.toNat := by
  have layout : ∀ (e : BitVec 4) (m v : Bool),
      (0#20 ++ e ++ 0#5 ++ BitVec.ofBool false ++ BitVec.ofBool m ++ BitVec.ofBool v : Word).toNat
        = v.toNat + 2 * m.toNat + 256 * e.toNat := by decide
  rw [State.statusWord, hb]
  exact layout _ _ _

/-- Settles O8: the offsets and the codes by their tables; a read is served by `step_readReg`, and its word is
the field, zero-extended, or the STATUS word. -/
theorem hostReadAnswersRegister : Obligations.HostReadAnswersRegister := by
  refine ⟨fun r => by cases r <;> rfl, fun e => by cases e <;> rfl, ?_⟩
  intro s rest addr r h ha hb
  refine ⟨step_readReg h ha hb, ?_⟩
  cases r
  case status => exact statusWord_toNat hb
  case device | channel | command | cksum | rxDevice | rxChannel | rxCommand | tol =>
    exact BitVec.toNat_setWidth_of_le (by decide)
  all_goals rfl

/-! ### What a register write leaves -/

@[simp] theorem State.writeReg_cfg (s : State) (r : Reg) (w : Word) : (s.writeReg r w).cfg = s.cfg := by
  cases r <;> rfl
@[simp] theorem State.writeReg_mem (s : State) (r : Reg) (w : Word) : (s.writeReg r w).mem = s.mem := by
  cases r <;> rfl
@[simp] theorem State.writeReg_host (s : State) (r : Reg) (w : Word) : (s.writeReg r w).host = s.host := by
  cases r <;> rfl
@[simp] theorem State.writeReg_busData (s : State) (r : Reg) (w : Word) :
    (s.writeReg r w).busData = s.busData := by
  cases r <;> rfl
@[simp] theorem State.writeReg_powerOns (s : State) (r : Reg) (w : Word) :
    (s.writeReg r w).powerOns = s.powerOns := by
  cases r <;> rfl

/-- A field that keeps the low `k` bits reads back as the written word under a mask. -/
theorem setWidth_setWidth_eq_and (v : Word) {k : Nat} (hk : k ≤ 32) :
    (v.setWidth k).setWidth 32 = v &&& BitVec.ofNat 32 (2 ^ k - 1) := by
  apply BitVec.eq_of_toNat_eq
  have hle : 2 ^ k ≤ 2 ^ 32 := Nat.pow_le_pow_right (by decide) hk
  have hpos : 0 < 2 ^ k := Nat.two_pow_pos k
  rw [BitVec.toNat_setWidth_of_le hk, BitVec.toNat_setWidth, BitVec.toNat_and, BitVec.toNat_ofNat,
    Nat.mod_eq_of_lt (by omega : 2 ^ k - 1 < 2 ^ 32), Nat.and_two_pow_sub_one_eq_mod]

/-- TOL's seven bits hold every clamped value (10_state.md R36). -/
theorem setWidth_ofNat_min_100 (n : Nat) :
    (BitVec.ofNat 7 (min n 100)).setWidth 32 = BitVec.ofNat 32 (min n 100) := by
  apply BitVec.eq_of_toNat_eq
  simp only [BitVec.toNat_setWidth, BitVec.toNat_ofNat]
  omega

theorem readReg_writeReg_of_ne {s : State} {q r : Reg} {v : Word} (h : q ≠ r) :
    (s.writeReg r v).readReg q = s.readReg q := by
  cases r
  case device | channel | command | pktLo | pktHi | rxLen | rxPos | carrier | tol =>
    cases q <;> simp [State.writeReg, State.readReg, State.statusWord] at h ⊢
  all_goals rfl

/-- Settles O6: the write is served by `step_writeReg`; every other register reads as before, the written one
as its field's width and clamp say. -/
theorem hostWriteSetsRegister : Obligations.HostWriteSetsRegister := by
  intro s rest addr r v h ha hb hr
  refine ⟨_, step_writeReg h ha hb hr, ?_, ?_, by simp, by simp, by simp, by simp, by simp⟩
  · intro q hq
    rw [readReg_writeReg_of_ne hq, readReg_withHost]
  · cases r
    case device => exact setWidth_setWidth_eq_and v (k := 24) (by decide)
    case channel => exact setWidth_setWidth_eq_and v (k := 16) (by decide)
    case command => exact setWidth_setWidth_eq_and v (k := 8) (by decide)
    case tol => exact setWidth_ofNat_min_100 v.toNat
    all_goals rfl

end Sys2Proof.Machine
end

section
/-! What a command does, said once: its effect on the state, by command and by what it read. Which command
writes which register and which bytes follows from it (10_state.md R24 to R41). -/
namespace Sys2Proof.Machine

/-- An emission changes TX_COUNT and the memory, and nothing else. -/
theorem emitAll_eq (ts : List Template) (s : State) : s.emitAll ts =
    { s with mem := (s.emitAll ts).mem, txCount := s.txCount + BitVec.ofNat 32 ts.length } := by
  induction ts generalizing s with
  | nil => simp [State.emitAll]
  | cons t ts ih =>
    have count : s.txCount + 1#32 + BitVec.ofNat 32 ts.length = s.txCount + BitVec.ofNat 32 (ts.length + 1) := by
      rw [BitVec.add_assoc, ← BitVec.ofNat_add, Nat.add_comm]
    rw [State.emitAll, ih, List.length_cons, ← count]
    rfl

/-- TX_FRAME's state once its sequence is out, before it reports success (43_frame_sync.md R194). -/
def State.sentFrame (s : State) : State :=
  { (s.beginFrame (framePairs (s.cfg.blocks s.command))).emitAll (frameSeq s.cfg s.inputRecord) with
    txPkts := BitVec.ofNat 32 (repeats * s.cfg.blocks s.command) }

theorem sentFrame_mem (s : State) : s.sentFrame.mem =
    ((s.beginFrame (framePairs (s.cfg.blocks s.command))).emitAll (frameSeq s.cfg s.inputRecord)).mem := by
  simp only [State.sentFrame]

/-- `Effect s i t`: command `i` ends in state `t` when run from `s`. One constructor per command and way it can
end, with what decided it. -/
inductive Effect (s : State) : Instr → State → Prop where
  | nop : Effect s .nop (s.finish .none)
  | cksum : Effect s .cksum ({ s with cksum := checksum s.device s.channel s.command }.finish .none)
  | pack : Effect s .pack
      ({ s.setPkt s.inputRecord.pack with cksum := checksum s.device s.channel s.command }.finish .none)
  | unpack : Effect s .unpack (s.publish (validate s.pkt))
  | txClear : Effect s .txClear ({ s with txCount := 0#32 }.finish .none)
  | emitPktFull (full : s.cfg.txCap < s.txCount.toNat + pktPairs) : Effect s .emitPkt (s.finish .txFull)
  | emitPkt (fits : s.txCount.toNat + pktPairs ≤ s.cfg.txCap) :
      Effect s .emitPkt ((s.emitAll (pulseSeq s.pkt)).finish .none)
  | txFrameFull (full : s.cfg.txCap < framePairs (s.cfg.blocks s.command)) :
      Effect s .txFrame (s.finish .txFull)
  | txFrame (fits : framePairs (s.cfg.blocks s.command) ≤ s.cfg.txCap) :
      Effect s .txFrame (s.sentFrame.finish .none)
  | rxMatch {tp : Template} {off : Nat} (m : Bool) (read : s.pairMatch tp (s.peekIndex off) = .ok m) :
      Effect s (.rxMatch tp off) ((s.setMatch m).finish .none)
  | rxExpectMiss {tp : Template} (read : s.pairMatch tp s.rxPos.toNat = .ok false) :
      Effect s (.rxExpect tp) ((s.setMatch false).finish .none)
  | rxExpectMatch {tp : Template} (read : s.pairMatch tp s.rxPos.toNat = .ok true) :
      Effect s (.rxExpect tp) (((s.setMatch true).setRxPos (s.rxPos.toNat + 2)).finish .none)
  | rxAdvance {n : Nat} :
      Effect s (.rxAdvance n) ((s.setRxPos (saturate32 (s.rxPos.toNat + n))).finish .none)
  | rxPkt (p : Parse) (q : Nat) (read : s.decodePacket s.rxPos.toNat = .ok (p, q)) :
      Effect s .rxPkt ((s.setRxPos q).publish p)
  | rxFrameShort (short : s.rxLen.toNat < s.cfg.minRxSamples) :
      Effect s .rxFrame (((s.setCounters Scan.start).setRxPos 0).publish (.absent .short))
  | rxFrame (c : Scan) (enough : s.cfg.minRxSamples ≤ s.rxLen.toNat)
      (read : s.scanLoop s.rxLen.toNat Scan.start = .ok c) :
      Effect s .rxFrame (((s.setCounters c).setRxPos c.pos).publish (firstResult c.first))
  | softReset : Effect s .softReset s.resetRegisters

/-- A command that answers a next state has one of its effects. -/
theorem exec_effect {i : Instr} {s t : State} (h : exec i s = .next t) : Effect s i t := by
  cases i
  case nop => cases h; exact .nop
  case cksum => cases h; exact .cksum
  case pack => cases h; exact .pack
  case unpack => cases h; exact .unpack
  case txClear => cases h; exact .txClear
  case rxAdvance => cases h; exact .rxAdvance
  case softReset => cases h; exact .softReset
  case emitPkt =>
    cases h
    split
    case isTrue full => exact .emitPktFull full
    case isFalse fits => exact .emitPkt (Nat.le_of_not_lt fits)
  case txFrame =>
    cases h
    split
    case isTrue full => exact .txFrameFull full
    case isFalse fits =>
      rw [emitFrame_eq]
      exact .txFrame (Nat.le_of_not_lt fits)
  case rxMatch =>
    obtain ⟨m, read, rfl⟩ := afterRead_next h
    exact .rxMatch m read
  case rxExpect =>
    obtain ⟨m, read, rfl⟩ := afterRead_next h
    cases m
    · exact .rxExpectMiss read
    · exact .rxExpectMatch read
  case rxPkt =>
    obtain ⟨⟨p, q⟩, read, rfl⟩ := afterRead_next h
    exact .rxPkt p q read
  case rxFrame =>
    rw [exec, execRxFrame] at h
    split at h
    case isTrue short => cases h; exact .rxFrameShort short
    case isFalse enough =>
      obtain ⟨c, read, rfl⟩ := afterRead_next h
      exact .rxFrame c (Nat.le_of_not_lt enough) read

/-- Settles O53: an effect leaves every register that its updates do not name, by the laws of the updates. -/
theorem registersHaveTheirWriters : Obligations.RegistersHaveTheirWriters := by
  intro i s t h
  cases exec_effect h
  case txFrame => simp [State.sentFrame]
  case emitPkt =>
    rw [emitAll_eq]
    simp
  all_goals simp

/-! ### The buffers -/

/-- The pairs of a frame, 428 or 824 (43_frame_sync.md R192). -/
theorem framePairs_blocks_le (c : Params) (k : BitVec 8) : framePairs (c.blocks k) ≤ 824 := by
  unfold Params.blocks
  split <;> decide

/-- Apart from the emitting commands, an effect keeps the memory. -/
theorem effect_mem {i : Instr} {s t : State} (h : Effect s i t) (he : i ≠ .emitPkt) (hf : i ≠ .txFrame) :
    t.mem = s.mem := by
  cases h
  case emitPktFull | emitPkt => contradiction
  case txFrameFull | txFrame => contradiction
  all_goals simp

/-- An emission that fits TX_CAP leaves every byte outside TXMEM. -/
theorem readByte_emitAll_outside_txmem {s : State} {ts : List Template} (hcap : s.cfg.txCap ≤ 2 ^ 20)
    (fits : s.txCount.toNat + ts.length ≤ s.cfg.txCap) {a : Nat}
    (ha : a < txBase ∨ txMarkAddr s.cfg.txCap ≤ a) :
    (s.emitAll ts).mem.readByte a = s.mem.readByte a :=
  readByte_emitAll_of_outside ts s a (by omega) (by unfold txMarkAddr at *; omega)

/-- A frame that fits TX_CAP fits behind the sequence that TX_FRAME empties. -/
theorem beginFrame_fits {s : State} {n : Nat} (fits : framePairs (s.cfg.blocks s.command) ≤ s.cfg.txCap) :
    (s.beginFrame n).txCount.toNat + (frameSeq s.cfg s.inputRecord).length ≤ (s.beginFrame n).cfg.txCap := by
  rw [frameSeq_length, State.beginFrame_txCount, State.beginFrame_cfg]
  exact (Nat.zero_add _).trans_le fits

/-- No effect changes a byte outside TXMEM (10_state.md R40, R41): an emitting command checks TX_CAP first. -/
theorem effect_readByte_outside_txmem {i : Instr} {s t : State} (h : Effect s i t) (hv : s.cfg.Valid)
    {a : Nat} (ha : a < txBase ∨ txMarkAddr s.cfg.txCap ≤ a) : t.mem.readByte a = s.mem.readByte a := by
  obtain ⟨-, -, -, -, hcap⟩ := hv
  cases h
  case emitPkt fits => exact readByte_emitAll_outside_txmem hcap (by rwa [pulseSeq_length]) ha
  case txFrame fits =>
    rw [State.finish_mem, sentFrame_mem, ← State.beginFrame_mem s]
    exact readByte_emitAll_outside_txmem (s := s.beginFrame _) hcap (beginFrame_fits fits) ha
  all_goals simp

/-- Settles O54: RXMEM lies below TXMEM, so a sample's bytes are none that an effect changes. -/
theorem commandsNeverWriteSamples : Obligations.CommandsNeverWriteSamples := by
  intro i s t hv h
  have outside {a : Nat} := effect_readByte_outside_txmem (exec_effect h) hv (a := a)
  have sample {j : Nat} (hj : j < s.cfg.rxCap) : t.rxWord j = s.rxWord j := by
    obtain ⟨-, -, hcap, -⟩ := hv
    refine rxWord_eq_of_readByte fun x _ hx => outside (.inl ?_)
    unfold rxAddr rxBase at hx
    unfold txBase
    omega
  refine ⟨fun j hj => ⟨sample hj, by rw [State.rxw, sample hj, State.rxw]⟩, fun a => outside, ?_⟩
  intro he hf a
  rw [effect_mem (exec_effect h) he hf]

end Sys2Proof.Machine
end

section
/-! What a command's result depends on (10_state.md R48, R49): not on STATUS, not on the buffers beyond the
samples of the stream, not on the model's own fields. -/
namespace Sys2Proof.Machine

/-! ### Reading the stream -/

/-- Two states whose streams read alike: equal length, equal tolerance, equal samples and written marks. -/
structure State.SameStream (s u : State) : Prop where
  rxLen : u.rxLen = s.rxLen
  tol : u.tol = s.tol
  rxWord : ∀ j, j < s.rxLen.toNat → u.rxWord j = s.rxWord j

section
variable {s u : State} (h : s.SameStream u)
include h

theorem markMatch_congr (i d : Nat) : u.markMatch i d = s.markMatch i d := by
  unfold State.markMatch State.readSample
  rw [h.rxLen, h.tol]
  by_cases hi : i < s.rxLen.toNat
  · rw [h.rxWord i hi]
  · rw [if_neg hi, if_neg hi]

theorem spaceMatch_congr (i d : Nat) : u.spaceMatch i d = s.spaceMatch i d := by
  unfold State.spaceMatch State.readSample
  rw [h.rxLen, h.tol]
  by_cases hi : i < s.rxLen.toNat
  · rw [h.rxWord i hi]
  · rw [if_neg hi, if_neg hi]

theorem pairMatch_congr (t : Template) (p : Nat) : u.pairMatch t p = s.pairMatch t p := by
  simp only [State.pairMatch, markMatch_congr h, spaceMatch_congr h]

theorem decodeBits_congr (n p : Nat) (acc : PacketWord) : u.decodeBits n p acc = s.decodeBits n p acc := by
  induction n generalizing p acc with
  | zero => rfl
  | succ n ih => simp only [State.decodeBits, pairMatch_congr h, ih]

theorem decodePacket_congr (p : Nat) : u.decodePacket p = s.decodePacket p := by
  simp only [State.decodePacket, State.decodeEnd, pairMatch_congr h, decodeBits_congr h]

theorem scanStep_congr (c : Scan) : u.scanStep c = s.scanStep c := by
  simp only [State.scanStep, pairMatch_congr h, decodePacket_congr h]

theorem scanLoop_congr (n : Nat) (c : Scan) : u.scanLoop n c = s.scanLoop n c := by
  induction n generalizing c with
  | zero => rfl
  | succ n ih => simp only [State.scanLoop, h.rxLen, scanStep_congr h, ih]

end

/-! ### Emitting -/

/-- What an emission stores depends on TX_COUNT and the memory alone. -/
theorem emitAll_mem_congr {s u : State} (ts : List Template) (hm : u.mem = s.mem) (hc : u.txCount = s.txCount) :
    (u.emitAll ts).mem = (s.emitAll ts).mem := by
  induction ts generalizing s u with
  | nil => exact hm
  | cons t ts ih =>
    refine ih ?_ ?_
    · simp only [State.emitPair, State.txAppend, hm, hc]
    · simp only [State.emitPair, State.txAppend, hc]

/-- The entries from the start of an emission on are the emitted ones and no more, whatever was stored there. -/
theorem txPair_emitAll {ts : List Template} {s : State} {j : Nat} (hc : s.txCount.toNat + ts.length < 2 ^ 32)
    (hj : s.txCount.toNat ≤ j) : (s.emitAll ts).txPair j = ts[j - s.txCount.toNat]?.map templatePair := by
  rw [State.txPair, emitAll_txCount ts s hc]
  split
  case isTrue hlt =>
    have hget : ts[j - s.txCount.toNat]? = some (ts[j - s.txCount.toNat]'(by omega)) := by simp
    have hstored := txStored_emitAll ts s _ _ hc hget
    rwa [Nat.add_sub_cancel' hj, ← Option.map_some, ← hget] at hstored
  case isFalse hge => rw [List.getElem?_eq_none (by omega), Option.map_none]

/-- The entry that a command emits at `j`, by the registers alone (41_modulator.md R136, 43_frame_sync.md
R194). -/
def State.newPair (s : State) (j : Nat) : Instr → Option (Word × Word)
  | .emitPkt =>
    if s.txCount.toNat + pktPairs ≤ s.cfg.txCap then
      (pulseSeq s.pkt)[j - s.txCount.toNat]?.map templatePair
    else none
  | .txFrame => (frameSeq s.cfg s.inputRecord)[j]?.map templatePair
  | _ => none

theorem txPair_congr {s u : State} (hm : u.mem = s.mem) (hc : u.txCount = s.txCount) (j : Nat) :
    u.txPair j = s.txPair j := by
  simp only [State.txPair, State.txStored, hm, hc]

theorem txPair_finish (s : State) (c : ErrCode) (j : Nat) : (s.finish c).txPair j = s.txPair j :=
  txPair_congr rfl rfl j

theorem txPair_of_le {s : State} {j : Nat} (h : s.txCount.toNat ≤ j) : s.txPair j = none :=
  if_neg (Nat.not_lt_of_le h)

theorem txPair_sentFrame (s : State) (j : Nat) : s.sentFrame.txPair j =
    ((s.beginFrame (framePairs (s.cfg.blocks s.command))).emitAll (frameSeq s.cfg s.inputRecord)).txPair j :=
  txPair_congr (sentFrame_mem s) (by simp only [State.sentFrame]) j

/-- Under legal parameters a frame always fits TX_CAP, and it does not wrap TX_COUNT. -/
theorem frame_fits {s : State} (hv : s.cfg.Valid) : framePairs (s.cfg.blocks s.command) ≤ s.cfg.txCap := by
  obtain ⟨-, -, -, hcap, -⟩ := hv
  exact (framePairs_blocks_le _ _).trans hcap

/-- Behind the sequence that stood before a command, and anywhere behind TX_FRAME, stand the new entries. -/
theorem effect_txPair {i : Instr} {s t : State} (h : Effect s i t) (hv : s.cfg.Valid) {j : Nat}
    (hj : s.txCount.toNat ≤ j ∨ i = .txFrame) : t.txPair j = s.newPair j i := by
  have hcap : s.cfg.txCap ≤ 2 ^ 20 := hv.2.2.2.2
  cases h
  case txFrameFull full => exact absurd (frame_fits hv) (Nat.not_le_of_lt full)
  case txFrame fits =>
    have hlen := beginFrame_fits (n := framePairs (s.cfg.blocks s.command)) fits
    rw [State.beginFrame_cfg] at hlen
    rw [txPair_finish, txPair_sentFrame, txPair_emitAll (by omega) (Nat.zero_le j)]
    rfl
  case emitPktFull full =>
    rw [txPair_finish, txPair_of_le (hj.resolve_right (by simp)), State.newPair, if_neg (Nat.not_le_of_lt full)]
  case emitPkt fits =>
    have hlen : s.txCount.toNat + (pulseSeq s.pkt).length ≤ s.cfg.txCap := by rwa [pulseSeq_length]
    rw [txPair_finish, txPair_emitAll (by omega) (hj.resolve_right (by simp)), State.newPair, if_pos fits]
  case txClear => exact txPair_of_le (Nat.zero_le j)
  case softReset => exact txPair_of_le (Nat.zero_le j)
  all_goals exact txPair_of_le (by simpa using hj)

/-! ### Two runs -/

/-- The fields that no command's result depends on. -/
structure Unread where
  valid : Bool
  matched : Bool
  err : ErrCode
  mem : Memory
  host : List HostOp
  busData : Option Word
  powerOns : Nat

/-- `s` with other values in the fields that no command's result depends on. -/
def State.withUnread (s : State) (x : Unread) : State :=
  { s with
    valid := x.valid, matched := x.matched, err := x.err, mem := x.mem
    host := x.host, busData := x.busData, powerOns := x.powerOns }

/-- How the end `t'` of a run from `s.withUnread x` stands to the end `t` of a run from `s`: equal registers,
where VALID and MATCH may also both stand as they stood before. -/
structure State.EndsAlike (s : State) (x : Unread) (t t' : State) : Prop where
  registers : t' = t.withUnread ⟨t'.valid, t'.matched, t.err, t'.mem, x.host, x.busData, x.powerOns⟩
  valid : t'.valid = t.valid ∨ (t.valid = s.valid ∧ t'.valid = x.valid)
  matched : t'.matched = t.matched ∨ (t.matched = s.matched ∧ t'.matched = x.matched)
  mem : x.mem = s.mem → t'.mem = t.mem

/-- Two outcomes of a command are alike: next states that `R` relates, or the same fault. -/
def OutcomesAlike (R : State → State → Prop) (o o' : Host.Outcome State Fault Refusal) : Prop :=
  match o, o' with
  | .next t, .next t' => R t t'
  | .fault f, .fault f' => f = f'
  | _, _ => False

/-- Alike outcomes stay alike under a relation that follows for the states the outcomes hold. -/
theorem OutcomesAlike.imp {R R' : State → State → Prop} {o o' : Host.Outcome State Fault Refusal}
    (h : OutcomesAlike R o o') (hR : ∀ t t', o = .next t → o' = .next t' → R t t' → R' t t') :
    OutcomesAlike R' o o' := by
  cases o <;> cases o'
  case next.next t t' => exact hR t t' rfl rfl h
  all_goals exact h

/-- Commands that read alike end alike if what they do with the value does. -/
theorem afterRead_alike {α : Type} {R : State → State → Prop} {r r' : Except Fault α} {k k' : α → State}
    (hr : r' = r) (hk : ∀ a, R (k a) (k' a)) : OutcomesAlike R (afterRead r k) (afterRead r' k') := by
  subst hr
  cases r' with
  | ok a => exact hk a
  | error f => rfl

/-- A choice that is the same on both sides relates alternatives that are related. -/
theorem alike_ite {α : Type} {R : α → α → Prop} {c : Prop} [Decidable c] {a a' b b' : α} (ha : c → R a a')
    (hb : ¬ c → R b b') : R (if c then a else b) (if c then a' else b') := by
  split
  case isTrue h => exact ha h
  case isFalse h => exact hb h

section
variable {s : State} {x : Unread}

/-- States that still differ as the starts do end alike, once both report the same code. -/
theorem endsAlike_finish {t t' : State} (c : ErrCode) (ht : t' = t.withUnread { x with mem := t'.mem })
    (hv : t.valid = s.valid) (hm : t.matched = s.matched) (hmem : x.mem = s.mem → t'.mem = t.mem) :
    s.EndsAlike x (t.finish c) (t'.finish c) := by
  obtain ⟨hv', hm'⟩ : t'.valid = x.valid ∧ t'.matched = x.matched := by rw [ht]; exact ⟨rfl, rfl⟩
  refine ⟨?_, .inr ⟨hv, hv'⟩, .inr ⟨hm, hm'⟩, hmem⟩
  rw [ht]
  rfl

/-- States that differ as the starts do end alike by publishing the same parse: VALID is then the same. -/
theorem endsAlike_publish {t : State} (p : Parse) (hm : t.matched = s.matched) (hmem : t.mem = s.mem) :
    s.EndsAlike x (t.publish p) ((t.withUnread x).publish p) := by
  cases p <;> exact ⟨rfl, .inl rfl, .inr ⟨hm, rfl⟩, fun h => h.trans hmem.symm⟩

/-- An emission keeps two states apart only as they were, and in the memory: what it does is fixed by the
sequence and TX_COUNT. -/
theorem emitAll_withUnread (ts : List Template) (s : State) (x : Unread) : (s.withUnread x).emitAll ts =
    (s.emitAll ts).withUnread { x with mem := ((s.withUnread x).emitAll ts).mem } := by
  rw [emitAll_eq ts (s.withUnread x), emitAll_eq ts s]
  rfl

theorem sentFrame_withUnread (s : State) (x : Unread) : (s.withUnread x).sentFrame =
    s.sentFrame.withUnread { x with mem := (s.withUnread x).sentFrame.mem } := by
  have emitted := emitAll_withUnread (frameSeq s.cfg s.inputRecord)
    (s.beginFrame (framePairs (s.cfg.blocks s.command))) x
  rw [sentFrame_mem]
  exact congrArg (fun e : State => { e with txPkts := BitVec.ofNat 32 (repeats * s.cfg.blocks s.command) }) emitted

theorem sentFrame_valid (s : State) : s.sentFrame.valid = s.valid := by simp [State.sentFrame]

theorem sentFrame_matched (s : State) : s.sentFrame.matched = s.matched := by simp [State.sentFrame]

theorem sentFrame_mem_congr (hm : x.mem = s.mem) : (s.withUnread x).sentFrame.mem = s.sentFrame.mem := by
  rw [sentFrame_mem, sentFrame_mem]
  exact emitAll_mem_congr (frameSeq s.cfg s.inputRecord) hm rfl

/-- A command run from two states that agree on the registers but STATUS and on the samples of the stream ends
alike. -/
theorem exec_alike (i : Instr) (h : s.SameStream (s.withUnread x)) :
    OutcomesAlike (s.EndsAlike x) (exec i s) (exec i (s.withUnread x)) := by
  cases i
  case nop | cksum | pack | txClear | rxAdvance => exact endsAlike_finish _ rfl rfl rfl id
  case softReset => exact ⟨rfl, .inl rfl, .inl rfl, id⟩
  case unpack => exact endsAlike_publish _ rfl rfl
  case emitPkt =>
    refine alike_ite (fun _ => endsAlike_finish _ rfl rfl rfl id) fun _ => ?_
    exact endsAlike_finish _ (emitAll_withUnread _ s x) (State.emitAll_valid _ s) (State.emitAll_matched _ s)
      (emitAll_mem_congr _ · rfl)
  case txFrame =>
    refine alike_ite (fun _ => endsAlike_finish _ rfl rfl rfl id) fun _ => ?_
    rw [emitFrame_eq, emitFrame_eq]
    exact endsAlike_finish _ (sentFrame_withUnread s x) (sentFrame_valid s) (sentFrame_matched s)
      sentFrame_mem_congr
  case rxMatch tp off =>
    exact afterRead_alike (pairMatch_congr h tp _) fun m => ⟨rfl, .inr ⟨rfl, rfl⟩, .inl rfl, id⟩
  case rxExpect tp =>
    refine afterRead_alike (pairMatch_congr h tp _) fun m => ?_
    cases m <;> exact ⟨rfl, .inr ⟨rfl, rfl⟩, .inl rfl, id⟩
  case rxPkt =>
    exact afterRead_alike (decodePacket_congr h _) fun r => endsAlike_publish r.1 rfl rfl
  case rxFrame =>
    refine alike_ite (fun _ => endsAlike_publish _ rfl rfl) fun _ => ?_
    exact afterRead_alike (scanLoop_congr h _ _) fun c => endsAlike_publish _ rfl rfl

end

/-- Settles O55: the two runs end alike, and the memory they start from is the same. -/
theorem noCommandReadsStatus : Obligations.NoCommandReadsStatus := by
  intro i s v m e
  refine (exec_alike (x := ⟨v, m, e, s.mem, s.host, s.busData, s.powerOns⟩) i ⟨rfl, rfl, fun _ _ => rfl⟩).imp
    fun t t' run _ alike => ⟨?_, alike.valid, alike.matched⟩
  obtain ⟨⟨-, hhost, hdata, hons⟩, -⟩ := registersHaveTheirWriters i s t run
  calc t' = _ := alike.registers
    _ = { t with valid := t'.valid, matched := t'.matched } := by
      rw [alike.mem rfl, ← hhost, ← hdata, ← hons]
      rfl

/-- Settles O56: the two runs end alike, with VALID and MATCH as they stood the same at the start; the entries
from TX_COUNT on are the new ones, which registers alone decide. -/
theorem resultDependsOnRegistersAndSamples : Obligations.ResultDependsOnRegistersAndSamples := by
  intro i s m h d k samples
  let x : Unread := ⟨s.valid, s.matched, s.err, m, h, d, k⟩
  refine (exec_alike (x := x) i ⟨rfl, rfl, samples⟩).imp fun t t' run run' alike => ⟨?_, fun hv j hj => ?_⟩
  · have hvalid : t'.valid = t.valid := alike.valid.elim id fun ⟨old, old'⟩ => old'.trans old.symm
    have hmatched : t'.matched = t.matched := alike.matched.elim id fun ⟨old, old'⟩ => old'.trans old.symm
    calc t' = _ := alike.registers
      _ = { t with mem := t'.mem, host := h, busData := d, powerOns := k } := by
        rw [hvalid, hmatched]
        rfl
  · rw [effect_txPair (exec_effect run) hv hj, effect_txPair (s := s.withUnread x) (exec_effect run') hv hj]
    cases i <;> rfl

end Sys2Proof.Machine
end

section
/-! The invariant (10_state.md R24 to R38, 20_memory.md R61): each update of the state keeps it, so every command,
every access of the host and every step does. -/
namespace Sys2Proof.Machine

/-! ### Samples -/

theorem lt_of_rxIndex {c : Params} {a i : Nat} (h : c.rxIndex a = some i) : i < c.rxCap := by
  unfold Params.rxIndex rxAddr at h
  split at h
  · obtain rfl : (a - rxBase) / 4 = i := by simpa using h
    omega
  · simp at h

/-- RXMEM lies below TXMEM (20_memory.md R61), so that a sample write leaves the stored pairs. -/
theorem txStored_storeRx {s : State} {i : Nat} {v : Word} (h : i < 2 ^ 22) (j : Nat) :
    (s.storeRx i v).txStored j = s.txStored j := by
  have below (a : Nat) (ha : txBase ≤ a) : (s.storeRx i v).mem.readWord a = s.mem.readWord a :=
    readWord_storeWord_of_disjoint (.inl (by unfold rxAddr rxBase; unfold txBase at ha; omega))
  unfold State.txStored
  rw [below (txMarkAddr j) (Nat.le_add_right _ _), below (txSpaceAddr j) (by unfold txSpaceAddr; omega)]

theorem txPair_storeRx {s : State} {i : Nat} {v : Word} (h : i < 2 ^ 22) (j : Nat) :
    (s.storeRx i v).txPair j = s.txPair j := by
  rw [State.txPair, State.txPair, txStored_storeRx h, State.storeRx_txCount]

/-! ### Bounds of what a command writes -/

/-- A frame has one of two lengths (43_frame_sync.md R192). -/
theorem framePairs_blocks (c : Params) (k : BitVec 8) :
    framePairs (c.blocks k) = 428 ∨ framePairs (c.blocks k) = 824 := by
  unfold Params.blocks
  split <;> decide

/-- A frame carries six packets, or twelve when its command has a RELEASE block (10_state.md R37). -/
theorem repeats_blocks (c : Params) (k : BitVec 8) :
    repeats * c.blocks k = 6 ∨ repeats * c.blocks k = 12 := by
  unfold Params.blocks
  split <;> decide

/-- A scan stays inside the stream and has moved the cursor at least once for each step it counted. -/
theorem scanLoop_bounds {s : State} {n : Nat} {c : Scan} (h : s.scanLoop n Scan.start = .ok c) :
    c.count ≤ c.pos ∧ c.pos ≤ s.rxLen.toNat := by
  refine scanLoop_induction (P := fun c => c.count ≤ c.pos ∧ c.pos ≤ s.rxLen.toNat) ?_
    ⟨Nat.zero_le _, Nat.zero_le _⟩ h
  rintro c c' ⟨hcount, -⟩ hp hstep
  obtain ⟨counted, moved, inside⟩ := scanStep_progress hp hstep
  omega

/-! ### Each update keeps the invariant -/

section
variable {s : State} (h : s.Inv)
include h

theorem State.Inv.withHost (rest : List HostOp) : State.Inv { s with host := rest } := { h with }

theorem State.Inv.withBusData (d : Option Word) : State.Inv { s with busData := d } := { h with }

theorem State.Inv.withCksum (b : BitVec 8) : State.Inv { s with cksum := b } := { h with }

theorem State.Inv.finish (c : ErrCode) : (s.finish c).Inv := { h with }

theorem State.Inv.setMatch (m : Bool) : (s.setMatch m).Inv := { h with }

theorem State.Inv.setPkt (p : PacketWord) : (s.setPkt p).Inv := { h with }

theorem State.Inv.setRxPos (p : Nat) : (s.setRxPos p).Inv := { h with }

/-- A record is published with VALID = 1, an absent result with a zero record (10_state.md R30). -/
theorem State.Inv.publish (p : Parse) : (s.publish p).Inv := by
  cases p with
  | ok r => exact { h with absent_zero := by simp }
  | absent c => exact { h with absent_zero := fun _ => rfl }

theorem State.Inv.setCounters {c : Scan} (hc : c.count ≤ s.cfg.rxCap) : (s.setCounters c).Inv where
  __ := h
  counters_le := by
    simp only [State.setCounters, BitVec.toNat_ofNat]
    have hpkts := Nat.mod_le c.pkts (2 ^ 32)
    have hbad := Nat.mod_le c.bad (2 ^ 32)
    have hskips := Nat.mod_le c.skips (2 ^ 32)
    have hnudges := Nat.mod_le c.nudges (2 ^ 32)
    unfold Scan.count at hc
    omega

theorem State.Inv.clearTx : State.Inv { s with txCount := 0#32 } where
  __ := h
  txCount_le := Nat.zero_le _
  emitted := fun j hj => absurd hj (Nat.not_lt_zero j)

/-- An emission that fits TX_CAP appends templates behind templates, inside TXMEM. -/
theorem State.Inv.emitAll {ts : List Template} (fits : s.txCount.toNat + ts.length ≤ s.cfg.txCap) :
    (s.emitAll ts).Inv := by
  have hcap : s.cfg.txCap ≤ 2 ^ 20 := h.cfg_valid.2.2.2.2
  have nowrap : s.txCount.toNat + ts.length < 2 ^ 32 := by omega
  have hcount := emitAll_txCount ts s nowrap
  refine
    { cfg_valid := by simpa using h.cfg_valid
      mem_wf := emitAll_wf ts s h.mem_wf
      mem_inBuffers := fun c hc => ?_
      rxLen_le := by simpa using h.rxLen_le
      txCount_le := by simpa [hcount] using fits
      tol_le := by simpa using h.tol_le
      not_busy := by simpa using h.not_busy
      emitted := fun j hj => ?_
      absent_zero := by simpa [State.outputRecord] using h.absent_zero
      txHint_range := by simpa using h.txHint_range
      txPkts_range := by simpa using h.txPkts_range
      counters_le := by simpa using h.counters_le }
  · rw [State.emitAll_cfg]
    rcases mem_emitAll ts s nowrap hc with old | ⟨lo, hi⟩
    · exact h.mem_inBuffers c old
    · right
      unfold txMarkAddr at *
      omega
  · by_cases old : j < s.txCount.toNat
    · obtain ⟨t, ht⟩ := h.emitted j old
      refine ⟨t, ?_⟩
      rw [State.txPair, if_pos hj, txStored_emitAll_of_outside ts s j nowrap (.inl old), ← ht, State.txPair,
        if_pos old]
    · rw [hcount] at hj
      have new : j - s.txCount.toNat < ts.length := by omega
      exact ⟨ts[j - s.txCount.toNat], by
        rw [txPair_emitAll nowrap (Nat.le_of_not_lt old), List.getElem?_eq_getElem new, Option.map_some]⟩

theorem State.Inv.beginFrame {n : Nat} (hn : n = 428 ∨ n = 824) : (s.beginFrame n).Inv where
  __ := h.clearTx
  txHint_range := by
    rcases hn with rfl | rfl
    · exact .inr (.inl rfl)
    · exact .inr (.inr rfl)

theorem State.Inv.withTxPkts {n : Nat} (hn : n = 6 ∨ n = 12) :
    State.Inv { s with txPkts := BitVec.ofNat 32 n } where
  __ := h
  txPkts_range := by
    rcases hn with rfl | rfl
    · exact .inr (.inl rfl)
    · exact .inr (.inr rfl)

theorem State.Inv.sentFrame : s.sentFrame.Inv :=
  ((h.beginFrame (framePairs_blocks _ _)).emitAll (beginFrame_fits (frame_fits h.cfg_valid))).withTxPkts
    (repeats_blocks _ _)

theorem State.Inv.resetRegisters : s.resetRegisters.Inv where
  __ := resetMeetsInvariant
  cfg_valid := h.cfg_valid
  mem_wf := h.mem_wf
  mem_inBuffers := h.mem_inBuffers
  rxLen_le := Nat.zero_le _
  txCount_le := Nat.zero_le _
  emitted := fun j hj => absurd hj (Nat.not_lt_zero j)
  counters_le := Nat.zero_le _

theorem State.Inv.powerOn : s.powerOn.Inv where
  __ := h.resetRegisters
  mem_wf := powerOn_mem_wf s
  mem_inBuffers := fun _ hc => absurd hc List.not_mem_nil
  emitted := fun j hj => absurd hj (Nat.not_lt_zero j)

/-- A sample write lists bytes of RXMEM only. -/
theorem State.Inv.storeRx {i : Nat} (hi : i < s.cfg.rxCap) (v : Word) : (s.storeRx i v).Inv where
  __ := h
  mem_wf := storeRx_wf h.mem_wf i v
  mem_inBuffers := fun c hc => by
    rcases mem_storeWord hc with old | ⟨lo, hi'⟩
    · exact h.mem_inBuffers c old
    · left
      simp only [State.storeRx_cfg]
      unfold rxAddr at *
      omega
  emitted := fun j hj => by
    have hcap : s.cfg.rxCap ≤ 2 ^ 20 := h.cfg_valid.2.2.1
    rw [txPair_storeRx (by omega)]
    exact h.emitted j hj

/-- RX_LEN and TOL are clamped (10_state.md R31, R36), and no other register the host writes is bounded. -/
theorem State.Inv.writeReg (r : Reg) (v : Word) : (s.writeReg r v).Inv := by
  cases r
  case rxLen => exact { h with rxLen_le := (Nat.mod_le _ _).trans (Nat.min_le_right _ _) }
  case tol => exact { h with tol_le := (Nat.mod_le _ _).trans (Nat.min_le_right _ _) }
  all_goals exact { h with }

/-! ### Every step keeps the invariant -/

theorem State.Inv.effect {i : Instr} {t : State} (he : Effect s i t) : t.Inv := by
  cases he
  case nop => exact h.finish _
  case cksum => exact (h.withCksum _).finish _
  case pack => exact ((h.setPkt _).withCksum _).finish _
  case unpack => exact h.publish _
  case txClear => exact h.clearTx.finish _
  case emitPktFull | txFrameFull => exact h.finish _
  case emitPkt fits => exact (h.emitAll (by rwa [pulseSeq_length])).finish _
  case txFrame => exact h.sentFrame.finish _
  case rxMatch | rxExpectMiss => exact (h.setMatch _).finish _
  case rxExpectMatch => exact ((h.setMatch _).setRxPos _).finish _
  case rxAdvance => exact (h.setRxPos _).finish _
  case rxPkt => exact (h.setRxPos _).publish _
  case rxFrameShort => exact ((h.setCounters (Nat.zero_le _)).setRxPos _).publish _
  case rxFrame read =>
    obtain ⟨counted, inside⟩ := scanLoop_bounds read
    exact ((h.setCounters ((counted.trans inside).trans h.rxLen_le)).setRxPos _).publish _
  case softReset => exact h.resetRegisters

theorem State.Inv.runCommand {w : Word} {t : State} (ht : s.runCommand w = .next t) : t.Inv := by
  rcases runCommand_cases s w with ⟨i, -, run⟩ | ⟨-, -, run⟩
  · exact h.effect (exec_effect (run.symm.trans ht))
  · cases run.symm.trans ht
    exact h.finish _

theorem State.Inv.writeWindow {a : Nat} {v : Word} {t : State} (ht : s.writeWindow a v = .next t) : t.Inv := by
  rcases writeWindow_cases s a v with ⟨-, cmd⟩ | ⟨r, -, -, reg⟩ | ⟨i, -, hi, sample⟩ | ⟨-, ignored⟩
  · exact h.runCommand (cmd.symm.trans ht)
  · cases reg.symm.trans ht
    exact h.writeReg r v
  · cases sample.symm.trans ht
    exact h.storeRx (lt_of_rxIndex hi) v
  · cases ignored.symm.trans ht
    exact h

end

/-- Settles O58: each of the things a step can do keeps the invariant. -/
theorem everyStepKeepsInvariant : Obligations.EveryStepKeepsInvariant := by
  intro s t h ht
  rcases step_cases s with ⟨-, idle⟩ | ⟨op, rest, -, served⟩
  · cases idle.symm.trans ht
    exact h
  · have hu := h.withHost rest
    rcases served with ⟨-, reset⟩ | ⟨r, refused⟩ | ⟨addr, -, -, read⟩ | ⟨addr, v, -, -, write⟩
    · cases reset.symm.trans ht
      exact hu.powerOn
    · cases refused.symm.trans ht
    · cases read.symm.trans ht
      exact hu.withBusData _
    · exact hu.writeWindow (write.symm.trans ht)

end Sys2Proof.Machine
end

section
/-! The host's accesses to the window (20_memory.md R61 to R70): which are refused, what a read and a write of
each region does, and that a repeated write changes nothing more. -/
namespace Sys2Proof.Machine

/-! ### Refused accesses -/

theorem accessRefusal_bad {s : State} {isRead : Bool} {addr size : Nat} (hb : s.busy = false)
    (bad : size ≠ 4 ∨ addr % 4 ≠ 0) : s.accessRefusal isRead addr size = some (.badAccess addr size) := by
  rw [State.accessRefusal, if_neg (by simp [hb]), if_pos bad]

/-- Settles O11: both accesses are refused by `accessRefusal_bad`. -/
theorem badAccessIsRefused : Obligations.BadAccessIsRefused := by
  intro s rest addr size v hb bad
  have refusal (isRead : Bool) :
      State.accessRefusal { s with host := rest } isRead addr size = some (.badAccess addr size) :=
    accessRefusal_bad hb bad
  constructor <;> intro h <;> simp only [step, h, State.serve, refusal]

/-! ### Served accesses -/

theorem readWindow_withHost (s : State) (rest : List HostOp) (a : Nat) :
    State.readWindow { s with host := rest } a = s.readWindow a := rfl

/-- A served read answers what the window holds and changes nothing but the answered word. -/
theorem step_readWindow {s : State} {rest : List HostOp} {addr : Nat} (h : s.host = .read addr 4 :: rest)
    (hb : s.busy = false) (ha : addr % 4 = 0) :
    step s = .next { s with host := rest, busData := some (s.readWindow (addr % 2 ^ 26)) } := by
  rw [step_read h hb ha, readWindow_withHost]

/-! ### Regions of the window -/

section
variable {s : State} {a : Nat} (hreg : Reg.ofOffset a = none)
include hreg

theorem readWindow_rx {i : Nat} (hrx : s.cfg.rxIndex a = some i) : s.readWindow a = s.bufferWord a := by
  simp only [State.readWindow, hreg, hrx]

theorem writeWindow_rx {i : Nat} (hrx : s.cfg.rxIndex a = some i) (v : Word) :
    s.writeWindow a v = .next (s.storeRx i v) := by
  simp only [State.writeWindow, hreg, hrx]

variable (hrx : s.cfg.rxIndex a = none)
include hrx

theorem readWindow_tx {j : Nat} (htx : s.cfg.txIndex a = some j) :
    s.readWindow a = if j < s.txCount.toNat then s.bufferWord a else 0#32 := by
  simp only [State.readWindow, hreg, hrx, htx]

theorem readWindow_unmapped (htx : s.cfg.txIndex a = none) : s.readWindow a = 0#32 := by
  simp only [State.readWindow, hreg, hrx, htx]

/-- Outside the registers and RXMEM a write is ignored (20_memory.md R64, R65). -/
theorem writeWindow_ignored (v : Word) : s.writeWindow a v = .next s := by
  simp only [State.writeWindow, hreg, hrx]

end

theorem step_write_ignored {s : State} {rest : List HostOp} {addr : Nat} {v : Word}
    (h : s.host = .write addr 4 v :: rest) (hb : s.busy = false) (ha : addr % 4 = 0)
    (hreg : Reg.ofOffset (addr % 2 ^ 26) = none) (hrx : s.cfg.rxIndex (addr % 2 ^ 26) = none) :
    step s = .next { s with host := rest } := by
  rw [step_write h hb ha]
  exact writeWindow_ignored (s := { s with host := rest }) hreg hrx v

theorem bufferWord_of_readWord {s : State} {a : Nat} {w : Word} (h : s.mem.readWord a = some w) :
    s.bufferWord a = w := by
  rw [State.bufferWord, h, Option.getD_some]

theorem ofOffset_rxAddr (i : Nat) : Reg.ofOffset (rxAddr i) = none :=
  ofOffset_none (by unfold rxAddr rxBase; omega)

/-- The window of TXMEM lies above the registers and, under legal parameters, above RXMEM. -/
theorem above_rxmem {c : Params} (hv : c.Valid) {a : Nat} (ha : txBase ≤ a) :
    Reg.ofOffset a = none ∧ c.rxIndex a = none := by
  have hcap : c.rxCap ≤ 2 ^ 20 := hv.2.2.1
  unfold txBase at ha
  exact ⟨ofOffset_none (by omega), rxIndex_none (.inr (by unfold rxAddr rxBase; omega))⟩

/-! ### Unmapped offsets and read-only registers -/

/-- The offsets of the registers that ignore a write (10_state.md section 3, 20_memory.md R65). -/
def readOnlyOffset (a : Nat) : Prop :=
  a = 0x04 ∨ (0x1C ≤ a ∧ a ≤ 0x28) ∨ a = 0x34 ∨ a = 0x38 ∨ (0x44 ≤ a ∧ a ≤ 0x54)

theorem writeReg_readOnly {r : Reg} (h : readOnlyOffset r.offset) (s : State) (v : Word) :
    s.writeReg r v = s := by
  unfold readOnlyOffset at h
  cases r
  case device | channel | command | pktLo | pktHi | rxLen | rxPos | carrier | tol =>
    exact absurd h (by decide)
  all_goals rfl

theorem writeWindow_readOnly {a : Nat} (h : readOnlyOffset a) (s : State) (v : Word) :
    s.writeWindow a v = .next s := by
  rcases writeWindow_cases s a v with ⟨rfl, -⟩ | ⟨r, -, rfl, reg⟩ | ⟨i, above, -, -⟩ | ⟨-, ignored⟩
  · exact absurd h (by unfold readOnlyOffset; decide)
  · rw [reg, writeReg_readOnly h]
  · unfold readOnlyOffset at h
    omega
  · exact ignored

/-- The offsets of the window where nothing stands (20_memory.md R61). -/
def Params.unmapped (c : Params) (a : Nat) : Prop :=
  (0x58 ≤ a ∧ a < rxBase) ∨ (rxAddr c.rxCap ≤ a ∧ a < txBase) ∨ txMarkAddr c.txCap ≤ a

theorem unmapped_none {c : Params} (hv : c.Valid) {a : Nat} (h : c.unmapped a) :
    Reg.ofOffset a = none ∧ c.rxIndex a = none ∧ c.txIndex a = none := by
  have hcap : c.rxCap ≤ 2 ^ 20 := hv.2.2.1
  unfold Params.unmapped rxAddr txMarkAddr rxBase txBase at h
  refine ⟨ofOffset_none (by omega), rxIndex_none ?_, txIndex_none ?_⟩
  · unfold rxAddr rxBase
    omega
  · unfold txMarkAddr txBase
    omega

/-- Settles O7: the offsets of an unmapped range are in no region, a read-only register keeps its value, and CMD's
word is 0. -/
theorem unmappedAndReadOnlyIgnoreWrites : Obligations.UnmappedAndReadOnlyIgnoreWrites := by
  intro s rest addr v hv hb ha off unmapped readOnly
  refine ⟨fun hu h => ?_, fun hu h => ?_, fun hr h => ?_, fun h0 h => ?_⟩
  · obtain ⟨hreg, hrx, htx⟩ := unmapped_none hv hu
    rw [step_readWindow h hb ha, readWindow_unmapped hreg hrx htx]
  · obtain ⟨hreg, hrx, -⟩ := unmapped_none hv hu
    exact step_write_ignored h hb ha hreg hrx
  · rw [step_write h hb ha, writeWindow_readOnly hr]
  · exact step_readReg (r := .cmd) h h0 hb

/-! ### Samples -/

/-- Settles O9: the access is one of RXMEM's window; a store is read back, and reaches no other sample, no TX pair
and no byte outside its word. -/
theorem hostWritesAndReadsSamples : Obligations.HostWritesAndReadsSamples := by
  intro s rest addr i v hv hb hi haddr
  have aligned : addr % 4 = 0 := by omega
  have hoff : addr % 2 ^ 26 = rxAddr i := haddr
  have hcap : s.cfg.rxCap ≤ 2 ^ 20 := hv.2.2.1
  have hread (h : s.host = .read addr 4 :: rest) :
      step s = .next { s with host := rest, busData := some (s.bufferWord (rxAddr i)) } := by
    rw [step_readWindow h hb aligned, hoff, readWindow_rx (ofOffset_rxAddr i) (rxIndex_rxAddr hi)]
  refine ⟨fun h => ?_, fun h hw => ?_, fun h _ => ⟨_, hread h⟩⟩
  · refine ⟨State.storeRx { s with host := rest } i v, ?_, rxWord_storeRx _ i v, rxw_storeRx _ i v,
      fun j hj => ?_, txStored_storeRx (by omega), fun a => readByte_storeWord_of_outside, rfl⟩
    · rw [step_write h hb aligned, hoff]
      exact writeWindow_rx (s := { s with host := rest }) (ofOffset_rxAddr i) (rxIndex_rxAddr hi) v
    · have hword : (State.storeRx { s with host := rest } i v).rxWord j = s.rxWord j := rxWord_storeRx_of_ne hj
      exact ⟨hword, by rw [State.rxw, hword, State.rxw]⟩
  · rw [hread h, bufferWord_of_readWord hw]

/-! ### TX pairs -/

/-- The two words of an emitted pair (10_state.md R41). -/
theorem readWord_of_txPair {s : State} {j : Nat} {m sp : Word} (h : s.txPair j = some (m, sp)) :
    j < s.txCount.toNat ∧ s.mem.readWord (txMarkAddr j) = some m ∧ s.mem.readWord (txSpaceAddr j) = some sp := by
  unfold State.txPair State.txStored at h
  split at h
  · split at h
    · obtain ⟨rfl, rfl⟩ := Prod.mk.inj (Option.some.inj h)
      exact ⟨‹_›, ‹_›, ‹_›⟩
    · cases h
  · cases h

theorem txBase_le_of_txIndex {c : Params} {a j : Nat} (h : c.txIndex a = some j) : txBase ≤ a := by
  by_contra below
  rw [txIndex_none (.inl (Nat.lt_of_not_le below))] at h
  cases h

/-- Settles O10: both words of an entry lie in TXMEM's window, which answers the stored word below TX_COUNT, 0 from
there on, and ignores writes. -/
theorem hostReadsTxPairs : Obligations.HostReadsTxPairs := by
  intro s rest addr j m sp v hv hb hj
  have entry (ha : addr % 2 ^ 26 = txMarkAddr j ∨ addr % 2 ^ 26 = txSpaceAddr j) :
      addr % 4 = 0 ∧ s.cfg.txIndex (addr % 2 ^ 26) = some j := by
    constructor
    · unfold txMarkAddr txSpaceAddr txBase at ha
      omega
    · rcases ha with ha | ha
      · rw [ha, txIndex_mark hj]
      · rw [ha, txIndex_space hj]
  have hread (ha : addr % 2 ^ 26 = txMarkAddr j ∨ addr % 2 ^ 26 = txSpaceAddr j)
      (h : s.host = .read addr 4 :: rest) : step s = .next { s with
        host := rest
        busData := some (if j < s.txCount.toNat then s.bufferWord (addr % 2 ^ 26) else 0#32) } := by
    obtain ⟨aligned, htx⟩ := entry ha
    obtain ⟨hreg, hrx⟩ := above_rxmem hv (txBase_le_of_txIndex htx)
    rw [step_readWindow h hb aligned, readWindow_tx hreg hrx htx]
  refine ⟨fun (ha : _ = txMarkAddr j) h hp => ?_, fun (ha : _ = txSpaceAddr j) h hp => ?_,
    fun ha hn h => ?_, fun ha h => ?_⟩
  · obtain ⟨hlt, hmark, -⟩ := readWord_of_txPair hp
    rw [hread (.inl ha) h, if_pos hlt, ha, bufferWord_of_readWord hmark]
  · obtain ⟨hlt, -, hspace⟩ := readWord_of_txPair hp
    rw [hread (.inr ha) h, if_pos hlt, ha, bufferWord_of_readWord hspace]
  · rw [hread ha h, if_neg (Nat.not_lt_of_le hn)]
  · obtain ⟨aligned, htx⟩ := entry ha
    obtain ⟨hreg, hrx⟩ := above_rxmem hv (txBase_le_of_txIndex htx)
    exact step_write_ignored h hb aligned hreg hrx

/-! ### Writing twice -/

/-- Storing the same bytes again keeps every cell: those below, the stored ones, and those above. -/
theorem storeBytes_storeBytes (m : Memory) (a : Nat) (bs : List Byte) :
    (m.storeBytes a bs).storeBytes a bs = m.storeBytes a bs := by
  have below : (m.storeBytes a bs).filter (fun c => c.1 < a) = m.filter (fun c => c.1 < a) := by
    have stored : (cellsAt a bs).filter (fun c => c.1 < a) = [] := List.filter_eq_nil_iff.2 fun c hc => by
      simpa using (cellsAt_bounds hc).1
    have upper : (m.filter (fun c => a + bs.length ≤ c.1)).filter (fun c => c.1 < a) = [] :=
      List.filter_eq_nil_iff.2 fun c hc => by
        have hc := (List.mem_filter.1 hc).2
        simp only [decide_eq_true_eq] at hc ⊢
        omega
    rw [Memory.storeBytes, List.filter_append, List.filter_append, stored, upper, List.filter_filter]
    simp
  have above : (m.storeBytes a bs).filter (fun c => a + bs.length ≤ c.1) =
      m.filter (fun c => a + bs.length ≤ c.1) := by
    have stored : (cellsAt a bs).filter (fun c => a + bs.length ≤ c.1) = [] :=
      List.filter_eq_nil_iff.2 fun c hc => by simpa using (cellsAt_bounds hc).2
    have lower : (m.filter (fun c => c.1 < a)).filter (fun c => a + bs.length ≤ c.1) = [] :=
      List.filter_eq_nil_iff.2 fun c hc => by
        have hc := (List.mem_filter.1 hc).2
        simp only [decide_eq_true_eq] at hc ⊢
        omega
    rw [Memory.storeBytes, List.filter_append, List.filter_append, stored, lower, List.filter_filter]
    simp
  rw [Memory.storeBytes, below, above, Memory.storeBytes]

theorem storeRx_storeRx (s : State) (i : Nat) (v : Word) : (s.storeRx i v).storeRx i v = s.storeRx i v := by
  simp only [State.storeRx, Memory.storeWord, storeBytes_storeBytes]

theorem writeReg_writeReg (s : State) (r : Reg) (v : Word) : (s.writeReg r v).writeReg r v = s.writeReg r v := by
  cases r <;> rfl

/-- Settles O14: a register or sample write that is repeated finds what it stores. -/
theorem repeatedWriteIsIdempotent : Obligations.RepeatedWriteIsIdempotent := by
  intro s t a v h0 ht
  rcases writeWindow_cases s a v with ⟨cmd, -⟩ | ⟨r, hr, rfl, reg⟩ | ⟨i, above, hi, sample⟩ | ⟨-, ignored⟩
  · exact absurd cmd h0
  · cases reg.symm.trans ht
    rw [writeWindow_reg v hr, writeReg_writeReg]
  · cases sample.symm.trans ht
    rw [writeWindow_rx (s := s.storeRx i v) (ofOffset_none above) hi, storeRx_storeRx]
  · cases ignored.symm.trans ht
    exact ignored

end Sys2Proof.Machine
end

section
/-! BASE (20_memory.md R62): an access is decoded by the low bits of its address, and every operation commutes with
a change of the window's number. -/
namespace Sys2Proof.Machine

/-- `s` with its window elsewhere: the same parameters but for BASE. -/
def State.withWindow (s : State) (k : Nat) : State := { s with cfg := { s.cfg with window := k } }

/-- An outcome whose next state, if there is one, is mapped. -/
def mapNext (f : State → State) : Host.Outcome State Fault Refusal → Host.Outcome State Fault Refusal
  | .next t => .next (f t)
  | .fault r => .fault r
  | .refused r => .refused r

/-- A state is another one with the window at `k`. -/
def State.MovedTo (k : Nat) (t t' : State) : Prop := t' = t.withWindow k

theorem eq_mapNext_of_moved {k : Nat} {o o' : Host.Outcome State Fault Refusal}
    (h : OutcomesAlike (State.MovedTo k) o o') : o' = mapNext (·.withWindow k) o := by
  cases o <;> cases o'
  case next.next t t' => exact congrArg Host.Outcome.next h
  case fault.fault f f' => exact congrArg Host.Outcome.fault (Eq.symm h)
  all_goals exact h.elim

/-! ### Commands -/

theorem execTxFrame_eq (s : State) : execTxFrame s =
    .next (if framePairs (s.cfg.blocks s.command) > s.cfg.txCap then s.finish .txFull
      else s.sentFrame.finish .none) := by
  rw [execTxFrame, emitFrame_eq]
  rfl

section
variable (s : State) (k : Nat)

theorem sameStream_withWindow : s.SameStream (s.withWindow k) := ⟨rfl, rfl, fun _ _ => rfl⟩

theorem finish_withWindow (c : ErrCode) : (s.withWindow k).finish c = (s.finish c).withWindow k := rfl

theorem publish_withWindow (p : Parse) : (s.withWindow k).publish p = (s.publish p).withWindow k := by
  cases p <;> rfl

theorem emitAll_withWindow (ts : List Template) : (s.withWindow k).emitAll ts = (s.emitAll ts).withWindow k := by
  induction ts generalizing s with
  | nil => rfl
  | cons t ts ih => exact ih (s.emitPair t)

theorem emitPacket_withWindow (p : PacketWord) :
    (s.withWindow k).emitPacket p = (s.emitPacket p).withWindow k :=
  emitAll_withWindow s k (pulseSeq p)

/-- TX_FRAME's sequence depends on the command codes, not on BASE. -/
theorem sentFrame_withWindow : (s.withWindow k).sentFrame = s.sentFrame.withWindow k := by
  have begun (n : Nat) : (s.withWindow k).beginFrame n = (s.beginFrame n).withWindow k := rfl
  have blocks (c : BitVec 8) : (s.withWindow k).cfg.blocks c = s.cfg.blocks c := rfl
  have sequence : frameSeq (s.withWindow k).cfg (s.withWindow k).inputRecord = frameSeq s.cfg s.inputRecord := rfl
  have command : (s.withWindow k).command = s.command := rfl
  rw [State.sentFrame, State.sentFrame, command, blocks, sequence, begun, emitAll_withWindow]
  generalize (s.beginFrame (framePairs (s.cfg.blocks s.command))).emitAll (frameSeq s.cfg s.inputRecord) = e
  rfl

theorem exec_moved (i : Instr) : OutcomesAlike (State.MovedTo k) (exec i s) (exec i (s.withWindow k)) := by
  have same := sameStream_withWindow s k
  cases i
  case nop | cksum | pack | txClear | rxAdvance | softReset => exact rfl
  case unpack => exact publish_withWindow s k _
  case emitPkt =>
    refine alike_ite (R := State.MovedTo k) (fun _ => rfl) fun _ => ?_
    calc ((s.withWindow k).emitPacket s.pkt).finish .none
        = ((s.emitPacket s.pkt).withWindow k).finish .none := by rw [emitPacket_withWindow]
      _ = ((s.emitPacket s.pkt).finish .none).withWindow k := finish_withWindow (s.emitPacket s.pkt) k .none
  case txFrame =>
    rw [exec, exec, execTxFrame_eq, execTxFrame_eq, sentFrame_withWindow]
    exact alike_ite (R := State.MovedTo k) (fun _ => rfl) fun _ => finish_withWindow s.sentFrame k .none
  case rxMatch tp off => exact afterRead_alike (pairMatch_congr same tp _) fun _ => rfl
  case rxExpect tp => exact afterRead_alike (pairMatch_congr same tp _) fun m => by cases m <;> exact rfl
  case rxPkt => exact afterRead_alike (decodePacket_congr same _) fun r => publish_withWindow (s.setRxPos r.2) k r.1
  case rxFrame =>
    refine alike_ite (fun _ => publish_withWindow ((s.setCounters Scan.start).setRxPos 0) k _) fun _ => ?_
    exact afterRead_alike (scanLoop_congr same _ _) fun c =>
      publish_withWindow ((s.setCounters c).setRxPos c.pos) k (firstResult c.first)

theorem runCommand_withWindow (w : Word) :
    (s.withWindow k).runCommand w = mapNext (·.withWindow k) (s.runCommand w) := by
  unfold State.runCommand
  cases decode w with
  | ok i => exact eq_mapNext_of_moved (exec_moved s k i)
  | error e => rfl

/-! ### Accesses -/

theorem writeReg_withWindow (r : Reg) (v : Word) :
    (s.withWindow k).writeReg r v = (s.writeReg r v).withWindow k := by
  cases r <;> rfl

theorem writeWindow_withWindow (a : Nat) (v : Word) :
    (s.withWindow k).writeWindow a v = mapNext (·.withWindow k) (s.writeWindow a v) := by
  cases hreg : Reg.ofOffset a with
  | some r =>
    obtain rfl := offset_of_ofOffset hreg
    by_cases hr : r = .cmd
    · subst hr
      exact runCommand_withWindow s k v
    · rw [writeWindow_reg v hr, writeWindow_reg v hr, writeReg_withWindow]
      rfl
  | none =>
    cases hrx : s.cfg.rxIndex a with
    | some i =>
      rw [writeWindow_rx hreg hrx, writeWindow_rx (s := s.withWindow k) hreg hrx]
      rfl
    | none =>
      rw [writeWindow_ignored hreg hrx, writeWindow_ignored (s := s.withWindow k) hreg hrx]
      rfl

theorem readWindow_withWindow (a : Nat) : (s.withWindow k).readWindow a = s.readWindow a := rfl

theorem accessRefusal_withWindow (isRead : Bool) (addr size : Nat) :
    (s.withWindow k).accessRefusal isRead addr size = s.accessRefusal isRead addr size := rfl

theorem serve_withWindow (op : HostOp) : (s.withWindow k).serve op = mapNext (·.withWindow k) (s.serve op) := by
  cases op with
  | powerOnReset => rfl
  | read addr size =>
    simp only [State.serve, accessRefusal_withWindow, readWindow_withWindow]
    cases s.accessRefusal true addr size <;> rfl
  | write addr size v =>
    simp only [State.serve, accessRefusal_withWindow]
    cases s.accessRefusal false addr size with
    | none => exact writeWindow_withWindow s k _ v
    | some r => rfl

theorem step_withWindow : step (s.withWindow k) = mapNext (·.withWindow k) (step s) := by
  unfold step
  rw [show (s.withWindow k).host = s.host from rfl]
  cases s.host with
  | nil => rfl
  | cons op rest => exact serve_withWindow { s with host := rest } k op

end

/-- Settles O13: a multiple of 2^26 falls away in the offset, and a step commutes with moving the window. -/
theorem accessDependsOnLowAddressBits : Obligations.AccessDependsOnLowAddressBits := by
  refine ⟨fun s rest off base v hb ha => ?_, fun s k => ?_⟩
  · have aligned : (base * 2 ^ 26 + off) % 4 = 0 := by omega
    have low : (base * 2 ^ 26 + off) % 2 ^ 26 = off % 2 ^ 26 := Nat.mul_add_mod_self_right base (2 ^ 26) off
    have write {a : Nat} (ha : a % 4 = 0) : step { s with host := .write a 4 v :: rest } =
        State.writeWindow { s with host := rest } (a % 2 ^ 26) v := step_write rfl hb ha
    have read {a : Nat} (ha : a % 4 = 0) : step { s with host := .read a 4 :: rest } =
        .next { s with host := rest, busData := some (s.readWindow (a % 2 ^ 26)) } := step_readWindow rfl hb ha
    exact ⟨by rw [write aligned, write ha, low], by rw [read aligned, read ha, low]⟩
  · have moved : step { s with cfg := { s.cfg with window := k } } = _ := step_withWindow s k
    rw [moved]
    cases step s <;> rfl

end Sys2Proof.Machine
end

section
/-! The command word (30_encoding.md R80 to R86): what a word must hold to decode to a command or to be rejected, and
that the encoder writes exactly that. -/
namespace Sys2Proof

/-- The operands of a command are those the word's fields hold (30_encoding.md R83). -/
def Instr.OperandsIn (w : Word) : Instr → Prop
  | .rxMatch t off => t = Template.ofTsel (tselField w) ∧ off = (offField w).toNat
  | .rxExpect t => t = Template.ofTsel (tselField w)
  | .rxAdvance n => n = (countField w).toNat
  | _ => True

/-! ### Fields of a word -/

theorem opField_toNat (w : Word) : (opField w).toNat = w.toNat % 256 := by
  simp [opField]

theorem opField_eq_ofNat (w : Word) : opField w = BitVec.ofNat 8 w.toNat :=
  BitVec.eq_of_toNat_eq (by rw [opField_toNat, BitVec.toNat_ofNat])

/-- Words that agree on a field's bits hold the same field. -/
theorem field_congr {w w' : Word} (start len : Nat)
    (h : ∀ k, start ≤ k → k < start + len → w.getLsbD k = w'.getLsbD k) :
    w.extractLsb' start len = w'.extractLsb' start len := by
  apply BitVec.eq_of_getLsbD_eq
  intro i hi
  rw [BitVec.getLsbD_extractLsb', BitVec.getLsbD_extractLsb', h (start + i) (by omega) (by omega)]

/-! ### What the decoder answers -/

/-- The opcode map of 30_encoding.md R84, read both ways. -/
theorem decode_eq_ok_iff {w : Word} {i : Instr} :
    decode w = .ok i ↔ w.toNat % 256 = i.opcode.toNat ∧ i.OperandsIn w := by
  rw [← opField_toNat]
  constructor
  · intro h
    unfold decode at h
    split at h <;> cases h <;> exact ⟨‹_›, by simp [Instr.OperandsIn]⟩
  · rintro ⟨hop, hi⟩
    cases i with
    | rxMatch t off =>
      obtain ⟨rfl, rfl⟩ := hi
      simp only [decode, hop]
      rfl
    | rxExpect t | rxAdvance n =>
      obtain rfl := hi
      simp only [decode, hop]
      rfl
    | _ =>
      simp only [decode, hop]
      rfl

/-- The only rejection of a word is that of its reserved opcode (30_encoding.md R85, R86). -/
theorem decode_eq_error {w : Word} {e : Reject} (h : decode w = .error e) :
    e = .reservedOpcode (opField w) ∧
    (w.toNat % 256 = 0x0C ∨ w.toNat % 256 = 0x0D ∨ w.toNat % 256 = 0x0E ∨ 0x10 ≤ w.toNat % 256) := by
  rw [← opField_toNat]
  unfold decode at h
  split at h <;> cases h
  refine ⟨rfl, ?_⟩
  simp only [imp_false] at *
  omega

theorem Instr.opcode_listed (i : Instr) : i.opcode.toNat ≤ 0x0B ∨ i.opcode.toNat = 0x0F := by
  cases i with
  | softReset => exact .inr rfl
  | _ => exact .inl (by simp [Instr.opcode])

/-- Operands read from a word's fields fit their fields. -/
theorem Instr.OperandsIn.wellFormed {w : Word} {i : Instr} (h : i.OperandsIn w) : i.WellFormed := by
  cases i with
  | rxMatch t off =>
    obtain ⟨-, rfl⟩ := h
    exact Nat.le_of_lt_succ (offField w).isLt
  | rxAdvance n =>
    obtain rfl := h
    exact Nat.le_of_lt_succ (countField w).isLt
  | _ => trivial

/-- Words of one opcode decode alike when they agree on the operand fields of that opcode's format. -/
theorem decode_congr {w w' : Word} (op : opField w = opField w')
    (tsel : w.toNat % 256 = 7 ∨ w.toNat % 256 = 8 → tselField w = tselField w')
    (off : w.toNat % 256 = 7 → offField w = offField w')
    (count : w.toNat % 256 = 9 → countField w = countField w') : decode w = decode w' := by
  have hop : w'.toNat % 256 = w.toNat % 256 := by rw [← opField_toNat, ← opField_toNat, op]
  cases h : decode w with
  | ok i =>
    obtain ⟨hi, operands⟩ := decode_eq_ok_iff.1 h
    refine (decode_eq_ok_iff.2 ⟨hop.trans hi, ?_⟩).symm
    cases i with
    | rxMatch t n => rwa [Instr.OperandsIn, ← tsel (.inl hi), ← off hi]
    | rxExpect t => rwa [Instr.OperandsIn, ← tsel (.inr hi)]
    | rxAdvance n => rwa [Instr.OperandsIn, ← count hi]
    | _ => trivial
  | error e =>
    obtain ⟨rfl, reserved⟩ := decode_eq_error h
    cases h' : decode w' with
    | ok i =>
      have := (decode_eq_ok_iff.1 h').1
      have := i.opcode_listed
      omega
    | error e' => rw [(decode_eq_error h').1, op]

/-! ### What the encoder writes -/

theorem opField_encode (i : Instr) : opField (encode i) = i.opcode := by
  cases i with
  | rxMatch t off => exact Laws.OpcodeField.opField_encodeM _ t off
  | rxExpect t => exact Laws.OpcodeField.opField_encodeM _ t 0
  | rxAdvance n => exact Laws.OpcodeField.opField_encodeA _ n
  | _ => exact Laws.OpcodeField.opField_encodeN _

theorem Template.ofTsel_tsel (t : Template) : Template.ofTsel t.tsel = t := by
  cases t <;> rfl

theorem tselField_encodeM (op : BitVec 8) (t : Template) (off : Nat) : tselField (encodeM op t off) = t.tsel :=
  (BitVec.extractLsb'_append_eq_of_le (by decide)).trans BitVec.extractLsb'_append_eq_right

/-- OFF stands above OP, TSEL and the ignored bits 15:10. -/
theorem offField_encodeM (op : BitVec 8) (t : Template) (off : Nat) :
    offField (encodeM op t off) = BitVec.ofNat 8 off :=
  (BitVec.extractLsb'_append_eq_of_le (by decide)).trans <|
  (BitVec.extractLsb'_append_eq_of_le (by decide)).trans <|
  (BitVec.extractLsb'_append_eq_of_le (by decide)).trans BitVec.extractLsb'_append_eq_right

theorem countField_encodeA (op : BitVec 8) (n : Nat) : countField (encodeA op n) = BitVec.ofNat 16 n :=
  (BitVec.extractLsb'_append_eq_of_le (by decide)).trans BitVec.extractLsb'_append_eq_left

/-- A well-formed command's operands stand in the word the encoder writes for it. -/
theorem operandsIn_encode {i : Instr} (h : i.WellFormed) : i.OperandsIn (encode i) := by
  cases i with
  | rxMatch t off =>
    rw [encode, Instr.OperandsIn, tselField_encodeM, offField_encodeM]
    exact ⟨t.ofTsel_tsel.symm, (Nat.mod_eq_of_lt (Nat.lt_succ_of_le h)).symm⟩
  | rxExpect t =>
    rw [encode, Instr.OperandsIn, tselField_encodeM]
    exact t.ofTsel_tsel.symm
  | rxAdvance n =>
    rw [encode, Instr.OperandsIn, countField_encodeA]
    exact (Nat.mod_eq_of_lt (Nat.lt_succ_of_le h)).symm
  | _ => trivial

/-! ### The obligations -/

/-- Settles O15: the encoded word holds the command's opcode (`opField_encode`) and its operands
(`operandsIn_encode`), which is what the decoder asks of a word. -/
theorem decodeEncodeRoundTrip : Obligations.DecodeEncodeRoundTrip := fun i h =>
  decode_eq_ok_iff.2 ⟨by rw [← opField_toNat, opField_encode], operandsIn_encode h⟩

/-- Settles O16: each format's bits are the fields that `decode_congr` asks of its opcode. -/
theorem decodeIgnoresUnnamedBits : Obligations.DecodeIgnoresUnnamedBits := by
  intro w w' low
  have op : opField w = opField w' := field_congr 0 8 fun k _ hk => low k (by omega)
  refine ⟨fun h7 h8 h9 => ?_, fun h7 bits => ?_, fun h8 bits => ?_, fun h9 bits => ?_⟩
  · exact decode_congr op (by omega) (by omega) (by omega)
  · have tsel : tselField w = tselField w' := field_congr 8 2 fun k _ _ => bits k (by omega)
    have off : offField w = offField w' := field_congr 16 8 fun k _ _ => bits k (by omega)
    exact decode_congr op (fun _ => tsel) (fun _ => off) (by omega)
  · have tsel : tselField w = tselField w' := field_congr 8 2 fun k _ _ => bits k (by omega)
    exact decode_congr op (fun _ => tsel) (by omega) (by omega)
  · have count : countField w = countField w' := field_congr 16 16 fun k lo hi => bits k lo hi
    exact decode_congr op (by omega) (by omega) (fun _ => count)

/-- Settles O17: an answered command has the word's opcode and operands (`decode_eq_ok_iff`), and a rejection is
that of a reserved opcode (`decode_eq_error`). -/
theorem everyWordIsOneRowOrReserved : Obligations.EveryWordIsOneRowOrReserved := by
  intro w
  cases h : decode w with
  | ok i =>
    obtain ⟨op, operands⟩ := decode_eq_ok_iff.1 h
    exact .inl ⟨i, rfl, op.symm, operands.wellFormed, op ▸ i.opcode_listed⟩
  | error e =>
    obtain ⟨rfl, reserved⟩ := decode_eq_error h
    exact .inr ⟨by rw [opField_eq_ofNat], reserved⟩

/-- Settles O18: nineteen closed words, which the decoder is run on. -/
theorem specWordsDecode : Obligations.SpecWordsDecode := by
  unfold Obligations.SpecWordsDecode
  decide

namespace Machine

/-- A served CMD write runs its word (30_encoding.md R80). -/
theorem step_cmd {s : State} {rest : List HostOp} {addr : Nat} {w : Word}
    (h : s.host = .write addr 4 w :: rest) (ha : addr % 2 ^ 26 = 0) (hb : s.busy = false) :
    step s = ({ s with host := rest } : State).runCommand w := by
  rw [step_write h hb (by omega), ha, writeWindow_cmd]

theorem runCommand_of_decode {w : Word} {i : Instr} (h : decode w = .ok i) (s : State) :
    s.runCommand w = exec i s := by
  rw [State.runCommand, h]

/-- Settles O4: the step runs the word, and the word runs the command it decodes to. -/
theorem stepRunsDecodedCommand : Obligations.StepRunsDecodedCommand := by
  intro s rest addr w i h ha hb hw
  rw [step_cmd h ha hb, runCommand_of_decode hw]

end Machine
end Sys2Proof
end

section
/-! The packet codec (40_packet_codec.md): a packet word by its fields and by its bytes, the words that validate, and
what CKSUM, PACK and UNPACK answer. -/
namespace Sys2Proof.Machine

/-! ### Slices -/

theorem extractLsb'_eq_ofNat {w : Nat} (start len : Nat) (x : BitVec w) :
    x.extractLsb' start len = BitVec.ofNat len (x.toNat / 2 ^ start) := by
  rw [BitVec.extractLsb', Nat.shiftRight_eq_div_pow]

theorem extractLsb'_extractLsb' {w len n off : Nat} (start : Nat) (x : BitVec w) (h : off + n ≤ len) :
    (x.extractLsb' start len).extractLsb' off n = x.extractLsb' (start + off) n := by
  apply BitVec.eq_of_getLsbD_eq
  intro i hi
  have inside : off + i < len := by omega
  simp [hi, inside, Nat.add_assoc]

/-! ### Fields of a packet word -/

theorem header_append_device (p : PacketWord) : pktHeader p ++ (pktRecord p).device = p.extractLsb' 32 32 :=
  BitVec.extractLsb'_append_extractLsb'_eq_extractLsb' rfl

theorem channel_append_command_append_checksum (p : PacketWord) :
    (pktRecord p).channel ++ (pktRecord p).command ++ pktChecksum p = p.extractLsb' 0 32 := by
  have record : (pktRecord p).channel ++ (pktRecord p).command = p.extractLsb' 8 24 :=
    BitVec.extractLsb'_append_extractLsb'_eq_extractLsb' rfl
  rw [record]
  exact BitVec.extractLsb'_append_extractLsb'_eq_extractLsb' rfl

/-- A packet word is its header, record and checksum side by side (30_encoding.md R81). -/
theorem eq_append_fields (p : PacketWord) :
    p = pktHeader p ++ (pktRecord p).device ++ (pktRecord p).channel ++ (pktRecord p).command ++ pktChecksum p := by
  have channel : p.extractLsb' 32 32 ++ (pktRecord p).channel = p.extractLsb' 16 48 :=
    BitVec.extractLsb'_append_extractLsb'_eq_extractLsb' rfl
  have command : p.extractLsb' 16 48 ++ (pktRecord p).command = p.extractLsb' 8 56 :=
    BitVec.extractLsb'_append_extractLsb'_eq_extractLsb' rfl
  have checksum : p.extractLsb' 8 56 ++ pktChecksum p = p.extractLsb' 0 64 :=
    BitVec.extractLsb'_append_extractLsb'_eq_extractLsb' rfl
  rw [header_append_device, channel, command, checksum, BitVec.extractLsb'_eq_self]

/-! ### The checksum -/

/-- The checksum of a record (40_packet_codec.md R100). -/
def Record.cksum (r : Record) : BitVec 8 := checksum r.device r.channel r.command

theorem checksum_eq_arith (d : BitVec 24) (c : BitVec 16) (k : BitVec 8) :
    checksum d c k = checksumArith d c k := by
  simp only [checksum, checksumSum, checksumArith, BitVec.extractLsb'_toNat, Nat.shiftRight_eq_div_pow,
    Nat.reducePow, Nat.div_one]

/-- Settles O22: each of the six bytes is at most 255. -/
theorem checksumSumAtMost1530 : Obligations.ChecksumSumAtMost1530 := by
  refine ⟨fun d c k => ?_, by decide⟩
  have byte (b : BitVec 8) : b.toNat ≤ 255 := Nat.le_of_lt_succ b.isLt
  calc checksumSum d c k
      ≤ 255 + 255 + 255 + 255 + 255 + 255 := by unfold checksumSum; gcongr <;> exact byte _
    _ = 1530 := rfl

/-! ### Fields of a packed record -/

section
variable (r : Record)

theorem pktHeader_pack : pktHeader r.pack = header :=
  (BitVec.extractLsb'_append_eq_of_le (by decide)).trans <|
  (BitVec.extractLsb'_append_eq_of_le (by decide)).trans <|
  (BitVec.extractLsb'_append_eq_of_le (by decide)).trans BitVec.extractLsb'_append_eq_left

theorem pktRecord_pack : pktRecord r.pack = r := by
  have device : r.pack.extractLsb' 32 24 = r.device :=
    (BitVec.extractLsb'_append_eq_of_le (by decide)).trans <|
    (BitVec.extractLsb'_append_eq_of_le (by decide)).trans <|
    (BitVec.extractLsb'_append_eq_of_le (by decide)).trans BitVec.extractLsb'_append_eq_right
  have channel : r.pack.extractLsb' 16 16 = r.channel :=
    (BitVec.extractLsb'_append_eq_of_le (by decide)).trans <|
    (BitVec.extractLsb'_append_eq_of_le (by decide)).trans BitVec.extractLsb'_append_eq_right
  have command : r.pack.extractLsb' 8 8 = r.command :=
    (BitVec.extractLsb'_append_eq_of_le (by decide)).trans BitVec.extractLsb'_append_eq_right
  rw [pktRecord, device, channel, command]

theorem pktChecksum_pack : pktChecksum r.pack = r.cksum :=
  BitVec.extractLsb'_append_eq_right

end

/-! ### The words that validate -/

theorem validate_of_header_ne {p : PacketWord} (hdr : pktHeader p ≠ header) : validate p = .absent .badHeader :=
  if_pos hdr

theorem validate_of_checksum_ne {p : PacketWord} (hdr : pktHeader p = header)
    (sum : pktChecksum p ≠ (pktRecord p).cksum) : validate p = .absent .badCksum :=
  (if_neg (not_not.2 hdr)).trans (if_pos sum)

theorem validate_of_checksum_eq {p : PacketWord} (hdr : pktHeader p = header)
    (sum : pktChecksum p = (pktRecord p).cksum) : validate p = .ok (pktRecord p) :=
  (if_neg (not_not.2 hdr)).trans (if_neg (not_not.2 sum))

/-- The words that validate to a record: its packing alone (40_packet_codec.md R111, R113). -/
theorem validate_eq_ok_iff {p : PacketWord} {r : Record} : validate p = .ok r ↔ p = r.pack := by
  constructor
  · intro h
    by_cases hdr : pktHeader p = header
    · by_cases sum : pktChecksum p = (pktRecord p).cksum
      · obtain rfl : pktRecord p = r := Parse.ok.inj ((validate_of_checksum_eq hdr sum).symm.trans h)
        calc p = _ := eq_append_fields p
          _ = (pktRecord p).pack := by rw [hdr, sum]; rfl
      · cases (validate_of_checksum_ne hdr sum).symm.trans h
    · cases (validate_of_header_ne hdr).symm.trans h
  · rintro rfl
    rw [validate_of_checksum_eq (pktHeader_pack r) (by rw [pktChecksum_pack, pktRecord_pack]), pktRecord_pack]

theorem validate_pack (r : Record) : validate r.pack = .ok r := validate_eq_ok_iff.2 rfl

/-- Settles O27: both words are the packing of the record. -/
theorem validWordIsPackOfItsRecord : Obligations.ValidWordIsPackOfItsRecord :=
  ⟨fun _ _ h => validate_eq_ok_iff.1 h, fun _ _ _ hp hq =>
    (validate_eq_ok_iff.1 hp).trans (validate_eq_ok_iff.1 hq).symm⟩

/-! ### Bytes of a packet word -/

/-- Byte `j` of a packet word: byte 0 is the checksum, byte 7 the header (30_encoding.md R81). -/
def pktByte (p : PacketWord) (j : Nat) : BitVec 8 := p.extractLsb' (8 * j) 8

/-- The record's bytes are bytes 1 to 6 of its word. -/
theorem cksum_pktRecord (p : PacketWord) :
    (pktRecord p).cksum = BitVec.ofNat 8 (∑ j ∈ Finset.Ico 1 7, (pktByte p j).toNat) := by
  have device {off : Nat} (h : off + 8 ≤ 24) := extractLsb'_extractLsb' 32 p h
  have channel {off : Nat} (h : off + 8 ≤ 16) := extractLsb'_extractLsb' 16 p h
  refine congrArg (BitVec.ofNat 8) ?_
  simp only [checksumSum, pktRecord, device, channel, Nat.reduceAdd, Nat.reduceLeDiff]
  simp only [pktByte, Finset.sum_Ico_succ_top, Finset.Ico_self, Finset.sum_empty, Nat.reduceLeDiff, Nat.reduceMul]
  omega

theorem cksum_pktRecord_congr {p q : PacketWord} (same : ∀ j ∈ Finset.Ico 1 7, pktByte q j = pktByte p j) :
    (pktRecord q).cksum = (pktRecord p).cksum := by
  rw [cksum_pktRecord, cksum_pktRecord, Finset.sum_congr rfl fun j hj => congrArg BitVec.toNat (same j hj)]

/-- Bytes that differ do so mod 2^8, so a change of one of the record's bytes shows in the checksum. -/
theorem cksum_pktRecord_ne {p q : PacketWord} {i : Nat} (hi : i ∈ Finset.Ico 1 7)
    (same : ∀ j ≠ i, pktByte q j = pktByte p j) (changed : pktByte q i ≠ pktByte p i) :
    (pktRecord q).cksum ≠ (pktRecord p).cksum := by
  have rest : ∑ j ∈ (Finset.Ico 1 7).erase i, (pktByte q j).toNat =
      ∑ j ∈ (Finset.Ico 1 7).erase i, (pktByte p j).toNat :=
    Finset.sum_congr rfl fun j hj => congrArg BitVec.toNat (same j (Finset.ne_of_mem_erase hj))
  rw [cksum_pktRecord, cksum_pktRecord, ← Finset.add_sum_erase _ _ hi, ← Finset.add_sum_erase _ _ hi, rest,
    BitVec.ofNat_add, BitVec.ofNat_add]
  simpa using changed

/-- Flipping bit `i` changes byte `i / 8` and no other. -/
theorem pktByte_flip {i j : Nat} (hi : i < 64) (p : PacketWord) :
    pktByte (p ^^^ BitVec.twoPow 64 i) j = pktByte p j ↔ j ≠ i / 8 := by
  constructor
  · rintro h rfl
    have bit := congrArg (·.getLsbD (i % 8)) h
    simp [pktByte, Nat.div_add_mod, hi, Nat.mod_lt] at bit
  · intro hj
    apply BitVec.eq_of_getLsbD_eq
    intro b hb
    have other : i ≠ 8 * j + b := by omega
    simp [pktByte, hb, other]

/-- Settles O26: the flip changes the header byte, the checksum byte, or one byte of the record. -/
theorem singleBitFlipIsAbsent : Obligations.SingleBitFlipIsAbsent := by
  intro p r i hi hp
  have hdr : pktHeader p = header := validate_eq_ok_iff.1 hp ▸ pktHeader_pack r
  have sum : pktChecksum p = (pktRecord p).cksum := by
    rw [validate_eq_ok_iff.1 hp, pktChecksum_pack, pktRecord_pack]
  have changed : pktByte (p ^^^ BitVec.twoPow 64 i) (i / 8) ≠ pktByte p (i / 8) :=
    fun h => (pktByte_flip hi p).1 h rfl
  have same (j : Nat) (hj : j ≠ i / 8) : pktByte (p ^^^ BitVec.twoPow 64 i) j = pktByte p j :=
    (pktByte_flip hi p).2 hj
  generalize p ^^^ BitVec.twoPow 64 i = q at changed same
  by_cases top : 56 ≤ i
  · rw [if_pos top]
    rw [show i / 8 = 7 by omega] at changed
    exact validate_of_header_ne fun h => changed (h.trans hdr.symm)
  · rw [if_neg top]
    apply validate_of_checksum_ne ((same 7 (by omega)).trans hdr)
    by_cases low : i < 8
    · have record : (pktRecord q).cksum = (pktRecord p).cksum := cksum_pktRecord_congr fun j hj =>
        same j (by have := Finset.mem_Ico.1 hj; omega)
      rw [show i / 8 = 0 by omega] at changed
      rw [record, ← sum]
      exact changed
    · have byte : pktChecksum q = pktChecksum p := same 0 (by omega)
      rw [byte, sum]
      exact (cksum_pktRecord_ne (Finset.mem_Ico.2 (by omega)) same changed).symm

/-! ### CKSUM and PACK -/

theorem exec_cksum (s : State) :
    exec .cksum s = .next { s with cksum := checksum s.device s.channel s.command, err := .none } := rfl

theorem exec_pack (s : State) : exec .pack s =
    .next { s.setPkt s.inputRecord.pack with cksum := s.inputRecord.cksum, err := .none } := rfl

/-- Settles O21: the checksum by fixed slices is that of decimal arithmetic. -/
theorem cksumWritesByteSum : Obligations.CksumWritesByteSum :=
  ⟨fun _ hw => decode_eq_ok_iff.2 ⟨hw, trivial⟩, fun s => by rw [exec_cksum, checksum_eq_arith]⟩

/-- Settles O23: PKT's halves hold the fields of the packed record. -/
theorem packWritesWirePacket : Obligations.PackWritesWirePacket := by
  refine ⟨fun _ hw => decode_eq_ok_iff.2 ⟨hw, trivial⟩, fun s => ?_⟩
  rw [exec_pack, State.setPkt, ← header_append_device, ← channel_append_command_append_checksum,
    pktHeader_pack, pktRecord_pack, pktChecksum_pack, Record.cksum, checksum_eq_arith]
  rfl

/-! ### UNPACK -/

theorem exec_unpack (s : State) : exec .unpack s = .next (s.publish (validate s.pkt)) := rfl

theorem pkt_setPkt (s : State) (p : PacketWord) : (s.setPkt p).pkt = p :=
  (BitVec.extractLsb'_append_extractLsb'_eq_extractLsb' rfl).trans BitVec.extractLsb'_eq_self

/-- Settles O25: PACK leaves the packed record in PKT, which validates to the record. -/
theorem packThenUnpackRoundTrip : Obligations.PackThenUnpackRoundTrip := by
  refine ⟨fun d c k => validate_pack ⟨d, c, k⟩, fun s => ⟨_, _, exec_pack s, exec_unpack _, ?_⟩⟩
  have packed : State.pkt { s.setPkt s.inputRecord.pack with cksum := s.inputRecord.cksum, err := .none } =
      s.inputRecord.pack := pkt_setPkt s _
  rw [packed, validate_pack]
  exact ⟨rfl, rfl, rfl, rfl⟩

section
variable (s : State)

theorem pktHeader_pkt_eq_header_iff : pktHeader s.pkt = header ↔ s.pktHi.toNat / 2 ^ 24 = 0xA3 := by
  have field : pktHeader s.pkt = BitVec.ofNat 8 (s.pktHi.toNat / 2 ^ 24) :=
    (BitVec.extractLsb'_append_eq_of_le (by decide)).trans (extractLsb'_eq_ofNat ..)
  have value : (pktHeader s.pkt).toNat = s.pktHi.toNat / 2 ^ 24 := by
    rw [field, BitVec.toNat_ofNat]
    omega
  rw [← BitVec.toNat_inj, value]
  rfl

theorem pktRecord_pkt : pktRecord s.pkt =
    { device := BitVec.ofNat 24 s.pktHi.toNat
      channel := BitVec.ofNat 16 (s.pktLo.toNat / 2 ^ 16)
      command := BitVec.ofNat 8 (s.pktLo.toNat / 2 ^ 8) } := by
  rw [pktRecord, State.pkt, BitVec.extractLsb'_append_eq_of_le (by decide),
    BitVec.extractLsb'_append_eq_of_add_le (by decide), BitVec.extractLsb'_append_eq_of_add_le (by decide)]
  simp only [extractLsb'_eq_ofNat, Nat.sub_self, Nat.pow_zero, Nat.div_one]

theorem pktChecksum_pkt : pktChecksum s.pkt = BitVec.ofNat 8 s.pktLo.toNat := by
  rw [pktChecksum, State.pkt, BitVec.extractLsb'_append_eq_of_add_le (by decide), extractLsb'_eq_ofNat,
    Nat.pow_zero, Nat.div_one]

end

/-- Settles O24: each clause is a branch of Validate, read at the fields of PKT's two halves. -/
theorem unpackValidatesHeaderThenChecksum : Obligations.UnpackValidatesHeaderThenChecksum := by
  refine ⟨fun _ hw => decode_eq_ok_iff.2 ⟨hw, trivial⟩, fun s => ?_⟩
  intro hdr d c k sum
  have header_iff : pktHeader s.pkt = header ↔ hdr = 0xA3 := pktHeader_pkt_eq_header_iff s
  have sum_iff : pktChecksum s.pkt = (pktRecord s.pkt).cksum ↔ sum = checksumArith d c k := by
    rw [pktChecksum_pkt, pktRecord_pkt, Record.cksum, checksum_eq_arith]
  rw [exec_unpack]
  refine ⟨fun h => ?_, fun h hs => ?_, fun h hs => ?_⟩
  · rw [validate_of_header_ne (header_iff.not.2 h)]
    rfl
  · rw [validate_of_checksum_ne (header_iff.2 h) (sum_iff.not.2 hs)]
    rfl
  · rw [validate_of_checksum_eq (header_iff.2 h) (sum_iff.2 hs), pktRecord_pkt]
    rfl

end Sys2Proof.Machine
end

section
/-! The OOK modulator (41_modulator.md): a packet's pulse sequence by its entries, its on-air time, and what TX_CLEAR
and EMIT_PKT answer. -/
namespace Sys2Proof.Machine

/-! ### The entries of a pulse sequence -/

theorem pulseSeq_getElem?_suffix (p : PacketWord) : (pulseSeq p)[65]? = some .pktSuffix := by
  rw [pulseSeq, List.getElem?_append_right] <;> simp [pktBits]

/-- Bits 63 down to 0 are entries 1 to 64 (41_modulator.md R132). -/
theorem pulseSeq_getElem?_bit (p : PacketWord) {k : Nat} (lo : 1 ≤ k) (hi : k ≤ 64) :
    (pulseSeq p)[k]? = some (bitTemplate p (64 - k)) := by
  obtain ⟨k, rfl⟩ := Nat.exists_eq_add_of_le' lo
  have inside : k < (bitTemplates p pktBits).length := (bitTemplates_length p 64).symm ▸ hi
  rw [pulseSeq, List.cons_append, List.getElem?_cons_succ, List.getElem?_append_left inside,
    bitTemplates_getElem? p pktBits k (by simpa using inside), pktBits, Nat.sub_right_comm, Nat.sub_sub]

theorem templatePair_bitTemplate (p : PacketWord) (i : Nat) : templatePair (bitTemplate p i) =
    if p.getLsbD i then (600#32, 275#32) else (290#32, 600#32) := by
  unfold bitTemplate
  split <;> rfl

/-! ### Injectivity -/

theorem bitTemplate_eq_one_iff {p : PacketWord} {i : Nat} : bitTemplate p i = .one ↔ p.getLsbD i = true := by
  unfold bitTemplate
  split
  case isTrue set => exact iff_of_true rfl set
  case isFalse clear => exact iff_of_false (by decide) clear

theorem bitTemplate_inj {p q : PacketWord} {i : Nat} (h : bitTemplate p i = bitTemplate q i) :
    p.getLsbD i = q.getLsbD i :=
  Bool.eq_iff_iff.2 (by rw [← bitTemplate_eq_one_iff, ← bitTemplate_eq_one_iff, h])

theorem pulseSeq_injective : Function.Injective pulseSeq := by
  intro p q h
  refine BitVec.eq_of_getLsbD_eq fun i hi => bitTemplate_inj (Option.some.inj ?_)
  have entry (w : PacketWord) : (pulseSeq w)[64 - i]? = some (bitTemplate w i) := by
    rw [pulseSeq_getElem?_bit w (by omega) (Nat.sub_le 64 i), Nat.sub_sub_self hi.le]
  rw [← entry p, ← entry q, h]

/-- No two templates have the same durations (00_scope.md R6). -/
theorem durations_injective : Function.Injective fun t : Template => (markOf t, spaceOf t) := by
  intro t u
  cases t <;> cases u <;> simp [markOf, spaceOf]

/-- Settles O30: the durations determine the templates, and the templates determine the bits. -/
theorem pulseSeqIsInjective : Obligations.PulseSeqIsInjective := fun _ _ h =>
  pulseSeq_injective (List.map_injective_iff.2 durations_injective h)

/-! ### On-air time -/

theorem onAir_append (ts us : List Template) : onAir (ts ++ us) = onAir ts + onAir us := by
  induction ts with
  | nil => exact (Nat.zero_add _).symm
  | cons t ts ih => simp only [List.cons_append, onAir, ih, Nat.add_assoc]

/-- A 0 bit takes 890 microseconds, and a 1 bit 15 fewer. -/
theorem onAir_bitTemplates (p : PacketWord) (n : Nat) :
    onAir (bitTemplates p n) + 15 * (List.range n).countP (fun i => p.getLsbD i) = 890 * n := by
  induction n with
  | zero => rfl
  | succ n ih =>
    rw [bitTemplates, onAir, List.range_succ, List.countP_append, List.countP_singleton, bitTemplate]
    cases p.getLsbD n <;> simp only [markOf, spaceOf, if_true, Bool.false_eq_true, if_false] <;> omega

theorem onAir_pulseSeq (p : PacketWord) : onAir (pulseSeq p) = 5600 + onAir (bitTemplates p 64) + 5600 := by
  rw [pulseSeq, onAir_append, onAir]
  rfl

/-- Settles O31: the framing pairs take 5600 microseconds each, and at most 64 bits are 1. -/
theorem packetOnAirTime : Obligations.PacketOnAirTime := by
  intro p n1
  have bits : onAir (bitTemplates p 64) + 15 * n1 = 890 * 64 := onAir_bitTemplates p 64
  have ones : n1 ≤ 64 := List.countP_le_length.trans_eq List.length_range
  rw [onAir_pulseSeq]
  omega

/-! ### TX_CLEAR -/

theorem exec_txClear (s : State) : exec .txClear s = .next { s with txCount := 0#32, err := .none } := rfl

/-- TXMEM's window reads 0 while the sequence is empty (20_memory.md R64). -/
theorem readWindow_of_txCount_zero {s : State} (empty : s.txCount = 0#32) (cap : rxAddr s.cfg.rxCap ≤ txBase)
    {a : Nat} (ha : txBase ≤ a) : s.readWindow a = 0#32 := by
  have hreg : Reg.ofOffset a = none := ofOffset_none (le_trans (by decide) ha)
  have hrx : s.cfg.rxIndex a = none := rxIndex_none (.inr (cap.trans ha))
  cases htx : s.cfg.txIndex a with
  | none => exact readWindow_unmapped hreg hrx htx
  | some j => rw [readWindow_tx hreg hrx htx, empty, BitVec.toNat_ofNat, Nat.zero_mod, if_neg (Nat.not_lt_zero j)]

/-- Settles O28: TX_CLEAR keeps the memory, and the window shows no entry of an empty sequence. -/
theorem txClearEmptiesSequence : Obligations.TxClearEmptiesSequence :=
  ⟨fun _ hw => decode_eq_ok_iff.2 ⟨hw, trivial⟩, fun s => ⟨_, exec_txClear s, rfl, fun _ => rfl,
    fun cap _ => readWindow_of_txCount_zero (s := { s with txCount := 0#32, err := .none }) rfl cap⟩⟩

/-! ### EMIT_PKT -/

theorem exec_emitPkt_of_full {s : State} (full : s.cfg.txCap < s.txCount.toNat + 66) :
    exec .emitPkt s = .next { s with err := .txFull } :=
  congrArg Host.Outcome.next (if_pos full)

theorem exec_emitPkt_of_fits {s : State} (fits : s.txCount.toNat + 66 ≤ s.cfg.txCap) :
    exec .emitPkt s = .next ((s.emitAll (pulseSeq s.pkt)).finish .none) :=
  congrArg Host.Outcome.next (if_neg (Nat.not_lt_of_le fits))

/-- An emission keeps the entries that stood before it. -/
theorem txPair_emitAll_of_lt {ts : List Template} {s : State} {j : Nat} (hc : s.txCount.toNat + ts.length < 2 ^ 32)
    (hj : j < s.txCount.toNat) : (s.emitAll ts).txPair j = s.txPair j := by
  rw [State.txPair, emitAll_txCount ts s hc, if_pos (hj.trans_le (Nat.le_add_right ..)),
    txStored_emitAll_of_outside ts s j hc (.inl hj), State.txPair, if_pos hj]

/-- Settles O29: EMIT_PKT is the emission of PKT's pulse sequence, which the capacity keeps from wrapping TX_COUNT. -/
theorem emitPktAppendsWholePacketOrNothing : Obligations.EmitPktAppendsWholePacketOrNothing := by
  refine ⟨fun _ hw => decode_eq_ok_iff.2 ⟨hw, trivial⟩, fun s hcap => ?_⟩
  intro c
  refine ⟨exec_emitPkt_of_full, fun fits => ⟨_, exec_emitPkt_of_fits fits, ?_⟩⟩
  have nowrap : c + (pulseSeq s.pkt).length < 2 ^ 32 := by
    rw [pulseSeq_length]
    omega
  have entry (k : Nat) : ((s.emitAll (pulseSeq s.pkt)).finish .none).txPair (c + k) =
      (pulseSeq s.pkt)[k]?.map templatePair := by
    rw [txPair_finish, txPair_emitAll nowrap (Nat.le_add_right c k), Nat.add_sub_cancel_left]
  refine ⟨?_, ?_, ?_, fun k lo hi => ?_, fun j hj => ?_, fun a ha => ?_, ?_⟩
  · rw [State.finish_txCount, emitAll_txCount _ s nowrap, pulseSeq_length]
  · exact entry 0
  · rw [entry, pulseSeq_getElem?_suffix]
    rfl
  · rw [entry, pulseSeq_getElem?_bit _ lo hi, Option.map_some, templatePair_bitTemplate, apply_ite some]
    rfl
  · rw [txPair_finish, txPair_emitAll_of_lt nowrap hj]
  · rw [State.finish_mem, readByte_emitAll_of_outside _ s a nowrap (by rwa [pulseSeq_length])]
  · rw [emitAll_eq]
    rfl

end Sys2Proof.Machine
end

section
/-! The OOK demodulator's single-pair commands (42_demodulator.md R155 to R159): the words they decode from, what a
match answers by the samples it reads, and what RX_MATCH, RX_EXPECT and RX_ADVANCE do with it. -/
namespace Sys2Proof.Machine

/-! ### The command words -/

theorem tselField_toNat (w : Word) : (tselField w).toNat = w.toNat / 256 % 4 := by
  simp [tselField, Nat.shiftRight_eq_div_pow]

theorem offField_toNat (w : Word) : (offField w).toNat = w.toNat / 65536 % 256 := by
  simp [offField, Nat.shiftRight_eq_div_pow]

theorem countField_toNat (w : Word) : (countField w).toNat = w.toNat / 65536 := by
  have := w.isLt
  simp only [countField, BitVec.extractLsb'_toNat, Nat.shiftRight_eq_div_pow]
  omega

/-! ### A match, by the samples it reads -/

section
variable {s : State} {t : Template} {p : Nat}

theorem pairFaultsAt_mark (inside : p < s.rxLen.toNat) (unwritten : s.rxw p = false) : s.pairFaultsAt t p p :=
  ⟨inside, unwritten, .inl rfl⟩

theorem pairFaultsAt_space {m : Word} (inside : p + 1 < s.rxLen.toNat) (mark : s.rxWord p = some m)
    (hit : s.markInWindow t m) (unwritten : s.rxw (p + 1) = false) : s.pairFaultsAt t p (p + 1) :=
  ⟨inside, unwritten, .inr ⟨rfl, m, mark, hit⟩⟩

theorem not_pairFaultsAt_of_pairWritten (written : s.pairWritten p) (i : Nat) : ¬ s.pairFaultsAt t p i := by
  obtain ⟨mark, space⟩ := written
  rintro ⟨inside, unwritten, rfl | ⟨rfl, -⟩⟩
  · simp [mark inside] at unwritten
  · simp [space inside] at unwritten

theorem pairMisses_of_pairWritten (written : s.pairWritten p) (out : ¬ s.pairInWindow t p) : s.pairMisses t p :=
  ⟨out, not_pairFaultsAt_of_pairWritten written⟩

/-- The space is not read after a mark outside the window (42_demodulator.md R153). -/
theorem pairMisses_of_mark_outside {m : Word} (mark : s.rxWord p = some m) (out : ¬ s.markInWindow t m) :
    s.pairMisses t p := by
  refine ⟨?_, ?_⟩
  · rintro ⟨-, m', sp, mark', -, nonneg, lo, hi, -⟩
    obtain rfl : m = m' := Option.some.inj (mark.symm.trans mark')
    exact out ⟨nonneg, lo, hi⟩
  · rintro i ⟨-, unwritten, rfl | ⟨-, m', mark', hit⟩⟩
    · simp [State.rxw, mark] at unwritten
    · obtain rfl : m = m' := Option.some.inj (mark.symm.trans mark')
      exact out hit

theorem pairWritten_of_rxWord {m sp : Word} (mark : s.rxWord p = some m) (space : s.rxWord (p + 1) = some sp) :
    s.pairWritten p :=
  ⟨fun _ => by simp [State.rxw, mark], fun _ => by simp [State.rxw, space]⟩

/-- A match on a pair that has been written completes. -/
theorem pairMatch_completes_of_pairWritten (t : Template) (written : s.pairWritten p) :
    ∃ b, s.pairMatch t p = .ok b := by
  by_cases h : s.pairInWindow t p
  · exact ⟨true, pairMatch_true_iff.2 h⟩
  · exact ⟨false, pairMatch_false_iff.2 (pairMisses_of_pairWritten written h)⟩

end

/-! ### RX_MATCH -/

theorem exec_rxMatch_of_match {s : State} {t : Template} {off : Nat} {m : Bool}
    (h : s.pairMatch t (s.rxPos.toNat + off) = .ok m) :
    exec (.rxMatch t off) s = .next { s with matched := m, err := .none } := by
  rw [exec, execRxMatch, State.peekIndex, h]
  rfl

theorem exec_rxMatch_of_fault {s : State} {t : Template} {off i : Nat}
    (h : s.pairFaultsAt t (s.rxPos.toNat + off) i) : exec (.rxMatch t off) s = .fault (.unwrittenSample i) := by
  rw [exec, execRxMatch, State.peekIndex, pairMatch_error_iff.2 h]
  rfl

/-- Settles O34: MATCH is what the match answers, and a fault is the match's. -/
theorem rxMatchSetsMatch : Obligations.RxMatchSetsMatch := by
  refine ⟨fun w op => decode_eq_ok_iff.2 ⟨op, ?_, (offField_toNat w).symm⟩, fun s t off => ⟨fun written => ?_,
    fun inside unwritten => ?_, fun m inside mark unwritten => ⟨fun hit => ?_, fun out => ?_⟩⟩⟩
  · rw [← tselField_toNat]
    rfl
  · obtain ⟨m, read⟩ := pairMatch_completes_of_pairWritten t written
    refine ⟨m, exec_rxMatch_of_match read, ?_⟩
    rw [← pairMatch_true_iff, read, Except.ok.injEq]
  · exact exec_rxMatch_of_fault (pairFaultsAt_mark inside unwritten)
  · exact exec_rxMatch_of_fault (pairFaultsAt_space inside mark hit unwritten)
  · exact exec_rxMatch_of_match (pairMatch_false_iff.2 (pairMisses_of_mark_outside mark out))

/-! ### RX_EXPECT -/

theorem exec_rxExpect_of_match {s : State} {t : Template} (h : s.pairInWindow t s.rxPos.toNat) :
    exec (.rxExpect t) s = .next
      { s with matched := true, rxPos := BitVec.ofNat 32 (s.rxPos.toNat + 2), err := .none } := by
  rw [exec, execRxExpect, pairMatch_true_iff.2 h]
  rfl

theorem exec_rxExpect_of_miss {s : State} {t : Template} (h : s.pairMisses t s.rxPos.toNat) :
    exec (.rxExpect t) s = .next { s with matched := false, err := .none } := by
  rw [exec, execRxExpect, pairMatch_false_iff.2 h]
  rfl

theorem exec_rxExpect_of_fault {s : State} {t : Template} {i : Nat} (h : s.pairFaultsAt t s.rxPos.toNat i) :
    exec (.rxExpect t) s = .fault (.unwrittenSample i) := by
  rw [exec, execRxExpect, pairMatch_error_iff.2 h]
  rfl

/-- Settles O35: the cursor moves by a pair that lies in the stream, so it does not wrap. -/
theorem rxExpectConsumesOnMatch : Obligations.RxExpectConsumesOnMatch := by
  refine ⟨fun w op => decode_eq_ok_iff.2 ⟨op, ?_⟩, fun s t => ⟨fun written => ⟨fun hit => ?_, fun out => ?_⟩,
    fun inside unwritten => ?_, fun m inside mark unwritten => ⟨fun hit => ?_, fun out => ?_⟩⟩⟩
  · rw [← tselField_toNat]
    rfl
  · have nowrap : s.rxPos.toNat + 2 < 2 ^ 32 := Nat.lt_of_le_of_lt hit.1 s.rxLen.isLt
    exact ⟨BitVec.ofNat 32 _, Nat.mod_eq_of_lt nowrap, exec_rxExpect_of_match hit⟩
  · exact exec_rxExpect_of_miss (pairMisses_of_pairWritten written out)
  · exact exec_rxExpect_of_fault (pairFaultsAt_mark inside unwritten)
  · exact exec_rxExpect_of_fault (pairFaultsAt_space inside mark hit unwritten)
  · exact exec_rxExpect_of_miss (pairMisses_of_mark_outside mark out)

/-! ### RX_ADVANCE -/

theorem exec_rxAdvance (n : Nat) (s : State) : exec (.rxAdvance n) s =
    .next { s with rxPos := BitVec.ofNat 32 (saturate32 (s.rxPos.toNat + n)), err := .none } := rfl

/-- Settles O36: a saturated sum fits the cursor. -/
theorem rxAdvanceSaturates : Obligations.RxAdvanceSaturates := by
  refine ⟨fun w op => decode_eq_ok_iff.2 ⟨op, (countField_toNat w).symm⟩, fun s n =>
    ⟨BitVec.ofNat 32 _, Nat.mod_eq_of_lt ?_, exec_rxAdvance n s⟩⟩
  exact Nat.lt_of_le_of_lt (Nat.min_le_right _ _) (by decide)

/-! ### The bit templates -/

/-- Settles O43: up to 37 the largest space of ONE is below the smallest space of ZERO. -/
theorem bitTemplatesDisjointUpTo37 : Obligations.BitTemplatesDisjointUpTo37 := by
  refine ⟨fun s p tol one zero => ?_, by decide⟩
  obtain ⟨-, m, sp, -, space, -, -, -, -, -, hi⟩ := pairMatch_true_iff.1 one
  obtain ⟨-, m', sp', -, space', -, -, -, -, lo, -⟩ := pairMatch_true_iff.1 zero
  obtain rfl : sp = sp' := Option.some.inj (space.symm.trans space')
  simp only [spaceOf] at lo hi
  omega

end Sys2Proof.Machine
end

section
/-! The packet parser (42_demodulator.md R160 to R166): its four steps, the samples it reads, the exact rendering of a
packet, and RX_PKT. -/
namespace Sys2Proof.Machine

/-! ### The bits -/

/-- The pair at sample index p is read as the bit b: ONE is tested before ZERO (42_demodulator.md R160). -/
def State.pairIsBit (s : State) (b : Bool) (p : Nat) : Prop :=
  if b then s.pairInWindow .one p else s.pairMisses .one p ∧ s.pairInWindow .zero p

/-- Bits shift in at the low end: the word's bits from n on are those from n + 1 on with bit n appended. -/
theorem shiftIn_bit (w : PacketWord) (n : Nat) :
    (w >>> (n + 1)) <<< 1 ||| (if w.getLsbD n then 1#64 else 0#64) = w >>> n := by
  apply BitVec.eq_of_getLsbD_eq
  intro i hi
  cases i with
  | zero => cases h : w.getLsbD n <;> simp [h]
  | succ i =>
    have same : n + 1 + i = n + (i + 1) := Nat.add_right_comm n 1 i
    cases w.getLsbD n <;> simp [hi, same]

/-- Pairs read as the low n bits of a word, most significant first, complete the word. -/
theorem decodeBits_word {s : State} {w : PacketWord} {n p : Nat}
    (bits : ∀ k, k < n → s.pairIsBit (w.getLsbD (n - 1 - k)) (p + 2 * k)) :
    s.decodeBits n p (w >>> n) = .ok (some w, p + 2 * n) := by
  induction n generalizing p with
  | zero => simp [State.decodeBits]
  | succ n ih =>
    have rest := ih (p := p + 2) fun k hk => by
      have := bits (k + 1) (by omega)
      rwa [show n + 1 - 1 - (k + 1) = n - 1 - k by omega, show p + 2 * (k + 1) = p + 2 + 2 * k by omega] at this
    have first : s.pairIsBit (w.getLsbD n) p := bits 0 n.succ_pos
    have shifted := shiftIn_bit w n
    rw [show p + 2 * (n + 1) = p + 2 + 2 * n by omega, ← rest, ← shifted, State.decodeBits]
    cases bit : w.getLsbD n
    · simp only [State.pairIsBit, bit, Bool.false_eq_true, if_false] at first
      simp [pairMatch_false_iff.2 first.1, pairMatch_true_iff.2 first.2]
    · simp only [State.pairIsBit, bit, if_true] at first
      simp [pairMatch_true_iff.2 first]

section
variable {s : State} {m n p : Nat} {acc : PacketWord} (inside : m < n)
  (before : ∀ k, k < m → s.pairIsBit true (p + 2 * k) ∨ s.pairIsBit false (p + 2 * k))
include inside before

/-- After m bits the loop tests the pair after them. -/
theorem decodeBits_at : ∃ k acc', s.decodeBits n p acc = s.decodeBits (k + 1) (p + 2 * m) acc' := by
  obtain ⟨acc', h⟩ := decodeBits_after (acc := acc) inside.le before
  exact ⟨n - m - 1, acc', by rw [h, Nat.sub_add_cancel (Nat.sub_pos_of_lt inside)]⟩

theorem decodeBits_of_one_fault {i : Nat} (h : s.pairFaultsAt .one (p + 2 * m) i) :
    s.decodeBits n p acc = .error (.unwrittenSample i) := by
  obtain ⟨k, acc', at_m⟩ := decodeBits_at (acc := acc) inside before
  rw [at_m, State.decodeBits, pairMatch_error_iff.2 h]

theorem decodeBits_of_zero_fault {i : Nat} (one : s.pairMisses .one (p + 2 * m))
    (h : s.pairFaultsAt .zero (p + 2 * m) i) : s.decodeBits n p acc = .error (.unwrittenSample i) := by
  obtain ⟨k, acc', at_m⟩ := decodeBits_at (acc := acc) inside before
  rw [at_m, State.decodeBits, pairMatch_false_iff.2 one, pairMatch_error_iff.2 h]

theorem decodeBits_of_miss (one : s.pairMisses .one (p + 2 * m)) (zero : s.pairMisses .zero (p + 2 * m)) :
    s.decodeBits n p acc = .ok (none, p + 2 * m) := by
  obtain ⟨k, acc', at_m⟩ := decodeBits_at (acc := acc) inside before
  rw [at_m, State.decodeBits, pairMatch_false_iff.2 one, pairMatch_false_iff.2 zero]

end

/-- Where every pair is a bit, the bit loop completes some word. -/
theorem decodeBits_of_bits {s : State} {n p : Nat} {acc : PacketWord}
    (bits : ∀ k, k < n → s.pairIsBit true (p + 2 * k) ∨ s.pairIsBit false (p + 2 * k)) :
    ∃ w, s.decodeBits n p acc = .ok (some w, p + 2 * n) := by
  obtain ⟨w, h⟩ := decodeBits_after (acc := acc) (Nat.le_refl n) bits
  exact ⟨w, by rw [h, Nat.sub_self, State.decodeBits]⟩

/-! ### The packet, step by step -/

theorem decodePacket_of_prefix_fault {s : State} {p i : Nat} (h : s.pairFaultsAt .pktPrefix p i) :
    s.decodePacket p = .error (.unwrittenSample i) := by
  rw [State.decodePacket, pairMatch_error_iff.2 h]

theorem decodePacket_of_prefix_miss {s : State} {p : Nat} (h : s.pairMisses .pktPrefix p) :
    s.decodePacket p = .ok (.absent .noPrefix, p) := by
  rw [State.decodePacket, pairMatch_false_iff.2 h]

section
variable {s : State} {p : Nat} (start : s.pairInWindow .pktPrefix p)
include start

theorem decodePacket_of_bits_fault {f : Fault} (h : s.decodeBits pktBits (p + 2) 0#64 = .error f) :
    s.decodePacket p = .error f := by
  rw [State.decodePacket, pairMatch_true_iff.2 start]
  simp only [h]

theorem decodePacket_of_bad_bit {q : Nat} (h : s.decodeBits pktBits (p + 2) 0#64 = .ok (none, q)) :
    s.decodePacket p = .ok (.absent .badBit, q) := by
  rw [State.decodePacket, pairMatch_true_iff.2 start]
  simp only [h]

theorem decodePacket_of_word {w : PacketWord} {q : Nat} (h : s.decodeBits pktBits (p + 2) 0#64 = .ok (some w, q)) :
    s.decodePacket p = s.decodeEnd q w := by
  rw [State.decodePacket, pairMatch_true_iff.2 start]
  simp only [h]

/-- A PREFIX pair, the pairs of a word's 64 bits and a SUFFIX pair are the word's packet. -/
theorem decodePacket_of_packet {w : PacketWord}
    (bits : ∀ k, k < 64 → s.pairIsBit (w.getLsbD (63 - k)) (p + 2 + 2 * k))
    (stop : s.pairInWindow .pktSuffix (p + 130)) : s.decodePacket p = .ok (validate w, p + 132) := by
  have word := decodeBits_word bits
  rw [BitVec.ushiftRight_eq_zero (Nat.le_refl 64)] at word
  rw [decodePacket_of_word start word, State.decodeEnd, pairMatch_true_iff.2 stop]

end

/-- Settles O40: each clause is one way through the steps, with the loop brought to the pair the clause names. -/
theorem decodePacketFollowsItsSteps : Obligations.DecodePacketFollowsItsSteps := by
  intro s p
  refine ⟨fun _ => decodePacket_of_prefix_fault, decodePacket_of_prefix_miss, fun start =>
    ⟨fun bi inside before => ⟨fun i fault => ?_, fun one => ⟨fun i fault => ?_, fun zero => ?_⟩⟩,
      fun bits => ?_, fun w bits stop => ?_⟩⟩
  · exact decodePacket_of_bits_fault start (decodeBits_of_one_fault inside before fault)
  · exact decodePacket_of_bits_fault start (decodeBits_of_zero_fault inside before one fault)
  · exact decodePacket_of_bad_bit start (decodeBits_of_miss inside before one zero)
  · obtain ⟨w, word⟩ := decodeBits_of_bits (acc := 0#64) bits
    rw [decodePacket_of_word start word, State.decodeEnd]
    refine ⟨fun i fault => ?_, fun miss => ?_⟩
    · rw [pairMatch_error_iff.2 fault]
    · rw [pairMatch_false_iff.2 miss]
  · exact decodePacket_of_packet start bits stop

/-! ### The samples the parser reads -/

theorem pairMatch_congr_at {s u : State} {p : Nat} (len : u.rxLen = s.rxLen) (tol : u.tol = s.tol)
    (mark : p < s.rxLen.toNat → u.rxWord p = s.rxWord p)
    (space : p + 1 < s.rxLen.toNat → u.rxWord (p + 1) = s.rxWord (p + 1)) (t : Template) :
    u.pairMatch t p = s.pairMatch t p := by
  have marks : u.markMatch p (markOf t) = s.markMatch p (markOf t) := by
    unfold State.markMatch State.readSample
    rw [len, tol]
    exact ite_congr rfl (fun inside => by rw [mark inside]) fun _ => rfl
  have spaces : u.spaceMatch (p + 1) (spaceOf t) = s.spaceMatch (p + 1) (spaceOf t) := by
    unfold State.spaceMatch State.readSample
    rw [len, tol]
    exact ite_congr rfl (fun inside => by rw [space inside]) fun _ => rfl
  rw [State.pairMatch, State.pairMatch, marks, spaces]

/-- The bit loop looks at its own n pairs only. -/
theorem decodeBits_congr_pairs {s u : State} {n p : Nat} {acc : PacketWord}
    (h : ∀ t q, p ≤ q → q + 1 < p + 2 * n → u.pairMatch t q = s.pairMatch t q) :
    u.decodeBits n p acc = s.decodeBits n p acc := by
  induction n generalizing p acc with
  | zero => rfl
  | succ n ih =>
    have first (t : Template) : u.pairMatch t p = s.pairMatch t p := h t p le_rfl (by omega)
    have rest (acc' : PacketWord) : u.decodeBits n (p + 2) acc' = s.decodeBits n (p + 2) acc' :=
      ih fun t q lo hi => h t q (by omega) (by omega)
    simp only [State.decodeBits, first, rest]

/-- The parser looks at its own 66 pairs only. -/
theorem decodePacket_congr_pairs {s u : State} {p : Nat}
    (h : ∀ t q, p ≤ q → q + 1 < p + 132 → u.pairMatch t q = s.pairMatch t q) :
    u.decodePacket p = s.decodePacket p := by
  have start : u.pairMatch .pktPrefix p = s.pairMatch .pktPrefix p := h _ p le_rfl (by omega)
  have bits : u.decodeBits pktBits (p + 2) 0#64 = s.decodeBits pktBits (p + 2) 0#64 :=
    decodeBits_congr_pairs fun t q lo hi => h t q (by omega) (by rw [pktBits] at hi; omega)
  rw [State.decodePacket, State.decodePacket, start, bits]
  rcases read : s.decodeBits pktBits (p + 2) 0#64 with f | ⟨_ | w, q⟩
  · rfl
  · rfl
  · have stop : q = p + 2 + 2 * pktBits := (decodeBits_stops read).1 rfl
    simp only [State.decodeEnd, h .pktSuffix q (by omega) (by rw [stop, pktBits]; omega)]

/-- Settles O44: the pairs of p .. p + 131 match alike, and the parser looks at no other. -/
theorem decodePacketReadsOnly132Samples : Obligations.DecodePacketReadsOnly132Samples :=
  fun _ _ _ len tol agree => decodePacket_congr_pairs fun t q lo hi =>
    pairMatch_congr_at len tol (agree q lo (by omega)) (agree (q + 1) (by omega) hi) t

theorem decodeBits_completes_of_pairWritten {s : State} {n p : Nat} {acc : PacketWord}
    (written : ∀ q, p ≤ q → q + 1 < p + 2 * n → s.pairWritten q) : ∃ r, s.decodeBits n p acc = .ok r := by
  induction n generalizing p acc with
  | zero => exact ⟨_, rfl⟩
  | succ n ih =>
    have first : s.pairWritten p := written p le_rfl (by omega)
    have rest (acc' : PacketWord) : ∃ r, s.decodeBits n (p + 2) acc' = .ok r :=
      ih fun q lo hi => written q (by omega) (by omega)
    obtain ⟨one, readOne⟩ := pairMatch_completes_of_pairWritten .one first
    obtain ⟨zero, readZero⟩ := pairMatch_completes_of_pairWritten .zero first
    rw [State.decodeBits, readOne, readZero]
    match one, zero with
    | true, _ => exact rest _
    | false, true => exact rest _
    | false, false => exact ⟨_, rfl⟩

theorem decodePacket_completes_of_pairWritten {s : State} {p : Nat}
    (written : ∀ q, p ≤ q → q + 1 < p + 132 → s.pairWritten q) : ∃ r, s.decodePacket p = .ok r := by
  by_cases start : s.pairInWindow .pktPrefix p
  · obtain ⟨⟨word, q⟩, read⟩ : ∃ r, s.decodeBits pktBits (p + 2) 0#64 = .ok r :=
      decodeBits_completes_of_pairWritten fun q lo hi => written q (by omega) (by rw [pktBits] at hi; omega)
    cases word with
    | none => exact ⟨_, decodePacket_of_bad_bit start read⟩
    | some w =>
      have stop : q = p + 2 + 2 * pktBits := (decodeBits_stops read).1 rfl
      obtain ⟨b, readEnd⟩ := pairMatch_completes_of_pairWritten .pktSuffix
        (written q (by omega) (by rw [stop, pktBits]; omega))
      rw [decodePacket_of_word start read, State.decodeEnd, readEnd]
      cases b <;> exact ⟨_, rfl⟩
  · exact ⟨_, decodePacket_of_prefix_miss (pairMisses_of_pairWritten (written p le_rfl (by omega)) start)⟩

/-! ### RX_PKT -/

theorem exec_rxPkt_of_record {s : State} {r : Record} {q : Nat}
    (h : s.decodePacket s.rxPos.toNat = .ok (.ok r, q)) : exec .rxPkt s = .next { s with
      rxPos := BitVec.ofNat 32 q, rxDevice := r.device, rxChannel := r.channel, rxCommand := r.command,
      valid := true, err := .none } := by
  rw [exec, execRxPkt, h]
  rfl

theorem exec_rxPkt_of_absent {s : State} {code : ErrCode} {q : Nat}
    (h : s.decodePacket s.rxPos.toNat = .ok (.absent code, q)) : exec .rxPkt s = .next { s with
      rxPos := BitVec.ofNat 32 q, rxDevice := 0#24, rxChannel := 0#16, rxCommand := 0#8,
      valid := false, err := code } := by
  rw [exec, execRxPkt, h]
  rfl

theorem exec_rxPkt_of_fault {s : State} {f : Fault} (h : s.decodePacket s.rxPos.toNat = .error f) :
    exec .rxPkt s = .fault f := by
  rw [exec, execRxPkt, h]
  rfl

/-- The parser stops where it began or inside the stream. -/
theorem decodePacket_stops {s : State} {p q : Nat} {r : Parse} (h : s.decodePacket p = .ok (r, q)) :
    q = p ∨ q ≤ s.rxLen.toNat := by
  cases start : s.pairMatch .pktPrefix p with
  | error f => simp [State.decodePacket, start] at h
  | ok hit =>
    cases hit with
    | true => exact .inr (decodePacket_progress start h).2
    | false =>
      rw [decodePacket_of_prefix_miss (pairMatch_false_iff.1 start)] at h
      cases h
      exact .inl rfl

theorem decodePacket_rxPos_lt {s : State} {q : Nat} {r : Parse} (h : s.decodePacket s.rxPos.toNat = .ok (r, q)) :
    q < 2 ^ 32 := by
  rcases decodePacket_stops h with rfl | inside
  · exact s.rxPos.isLt
  · exact Nat.lt_of_le_of_lt inside s.rxLen.isLt

/-- Settles O41: RX_PKT publishes the parser's record, and the parser's position fits the cursor. -/
theorem rxPktPublishesDecodedPacket : Obligations.RxPktPublishesDecodedPacket := by
  refine ⟨fun w op => decode_eq_ok_iff.2 ⟨op, trivial⟩, fun s => ?_⟩
  intro answers
  have publishes (r : Parse) (q : Nat) (h : s.decodePacket s.rxPos.toNat = .ok (r, q)) : answers r q := by
    refine ⟨BitVec.ofNat 32 q, Nat.mod_eq_of_lt (decodePacket_rxPos_lt h), ?_⟩
    cases r with
    | ok r => exact exec_rxPkt_of_record h
    | absent code => exact exec_rxPkt_of_absent h
  refine ⟨publishes, fun f => exec_rxPkt_of_fault, fun written => ?_⟩
  obtain ⟨⟨r, q⟩, h⟩ := decodePacket_completes_of_pairWritten (s := s) (p := s.rxPos.toNat) fun q lo hi =>
    ⟨written q lo (by omega), written (q + 1) (by omega) hi⟩
  exact ⟨r, q, h, publishes r q h⟩

/-! ### The exact rendering of a packet -/

theorem render_getElem?_mark (ts : List Template) (k : Nat) :
    (render ts)[2 * k]? = ts[k]?.map fun t => (markOf t : Int) := by
  induction ts generalizing k with
  | nil => rfl
  | cons t ts ih =>
    cases k with
    | zero => rfl
    | succ k => exact ih k

theorem render_getElem?_space (ts : List Template) (k : Nat) :
    (render ts)[2 * k + 1]? = ts[k]?.map fun t => -(spaceOf t : Int) := by
  induction ts generalizing k with
  | nil => rfl
  | cons t ts ih =>
    cases k with
    | zero => rfl
    | succ k => exact ih k

/-- The pair at sample index p is template t's own, exactly. -/
def State.pairExact (s : State) (t : Template) (p : Nat) : Prop :=
  p + 1 < s.rxLen.toNat ∧ s.rxWord p = some (BitVec.ofInt 32 (markOf t)) ∧
    s.rxWord (p + 1) = some (BitVec.ofInt 32 (-(spaceOf t : Int)))

theorem pairExact_of_holdsSamples {s : State} {p k : Nat} {ts : List Template} {t : Template}
    (holds : s.holdsSamples p (render ts)) (inside : p + 2 * ts.length ≤ s.rxLen.toNat) (entry : ts[k]? = some t) :
    s.pairExact t (p + 2 * k) := by
  obtain ⟨short, -⟩ := List.getElem?_eq_some_iff.1 entry
  exact ⟨by omega, holds (2 * k) _ (by rw [render_getElem?_mark, entry]; rfl),
    holds (2 * k + 1) _ (by rw [render_getElem?_space, entry]; rfl)⟩

theorem markOf_toInt (t : Template) : (BitVec.ofInt 32 (markOf t)).toInt = markOf t := by
  cases t <;> rfl

theorem spaceOf_toInt (t : Template) : (BitVec.ofInt 32 (-(spaceOf t : Int))).toInt = -(spaceOf t : Int) := by
  cases t <;> rfl

/-- A duration lies in its own window at every tolerance up to 100 (42_demodulator.md R151). -/
theorem duration_in_own_window {tol : Nat} (htol : tol ≤ 100) (d : Nat) :
    (100 - (tol : Int)) * d / 100 ≤ d ∧ (d : Int) ≤ (100 + (tol : Int)) * d / 100 := by
  have lo : (100 - (tol : Int)) * d ≤ 100 * d := Int.mul_le_mul_of_nonneg_right (by omega) (by omega)
  have hi : 100 * (d : Int) ≤ (100 + (tol : Int)) * d := Int.mul_le_mul_of_nonneg_right (by omega) (by omega)
  omega

section
variable {s : State} {p : Nat} (tol : s.tol.toNat ≤ 100)
include tol

theorem pairInWindow_of_pairExact {t : Template} (own : s.pairExact t p) : s.pairInWindow t p := by
  obtain ⟨inside, mark, space⟩ := own
  obtain ⟨markLo, markHi⟩ := duration_in_own_window tol (markOf t)
  obtain ⟨spaceLo, spaceHi⟩ := duration_in_own_window tol (spaceOf t)
  refine ⟨inside, _, _, mark, space, ?_⟩
  rw [markOf_toInt, spaceOf_toInt, neg_neg]
  exact ⟨by omega, markLo, markHi, by omega, spaceLo, spaceHi⟩

/-- ZERO's space is twice ONE's and more, so it is above ONE's window at every tolerance up to 100. -/
theorem pairMisses_one_of_pairExact_zero (own : s.pairExact .zero p) : s.pairMisses .one p := by
  obtain ⟨-, mark, space⟩ := own
  refine pairMisses_of_pairWritten (pairWritten_of_rxWord mark space) ?_
  rintro ⟨-, m, sp, -, space', -, -, -, -, -, hi⟩
  obtain rfl : _ = sp := Option.some.inj (space.symm.trans space')
  rw [spaceOf_toInt, neg_neg] at hi
  simp only [spaceOf] at hi
  omega

theorem pairIsBit_of_pairExact {w : PacketWord} {i : Nat} (own : s.pairExact (bitTemplate w i) p) :
    s.pairIsBit (w.getLsbD i) p := by
  unfold bitTemplate at own
  unfold State.pairIsBit
  split at own
  case isTrue set => exact if_pos set ▸ pairInWindow_of_pairExact tol own
  case isFalse clear =>
    exact if_neg clear ▸ ⟨pairMisses_one_of_pairExact_zero tol own, pairInWindow_of_pairExact tol own⟩

/-- The parser reads a word's exact rendering as the word. -/
theorem decodePacket_rendered {w : PacketWord} (inside : p + 132 ≤ s.rxLen.toNat)
    (holds : s.holdsSamples p (render (pulseSeq w))) : s.decodePacket p = .ok (validate w, p + 132) := by
  have pair {k : Nat} {t : Template} (entry : (pulseSeq w)[k]? = some t) : s.pairExact t (p + 2 * k) :=
    pairExact_of_holdsSamples holds (by rwa [pulseSeq_length]) entry
  refine decodePacket_of_packet (pairInWindow_of_pairExact tol (pair (k := 0) rfl)) (fun k hk => ?_)
    (pairInWindow_of_pairExact tol (pair (pulseSeq_getElem?_suffix w)))
  have bit := pair (pulseSeq_getElem?_bit w (k := k + 1) (by omega) (by omega))
  rw [show p + 2 * (k + 1) = p + 2 + 2 * k by omega, show 64 - (k + 1) = 63 - k by omega] at bit
  exact pairIsBit_of_pairExact tol bit

end

/-- Settles O42: the parser reads the word, and a record's packet validates to the record. -/
theorem exactPulsesDecodeAtEveryTolerance : Obligations.ExactPulsesDecodeAtEveryTolerance := by
  refine ⟨fun s p w tol inside holds => decodePacket_rendered tol inside holds, fun s r tol inside holds => ?_⟩
  have parse : s.decodePacket s.rxPos.toNat = .ok (.ok r, s.rxPos.toNat + 132) := by
    rw [decodePacket_rendered tol inside holds, ← Record.pack, validate_pack]
  have cursor : BitVec.ofNat 32 (s.rxPos.toNat + 132) = s.rxPos + 132#32 := by
    rw [BitVec.ofNat_add, BitVec.ofNat_toNat, BitVec.setWidth_eq]
  rw [exec_rxPkt_of_record parse, cursor]

end Sys2Proof.Machine
end

section
/-! The framer (43_frame_sync.md R191 to R195): where the packets of a frame stand, and what TX_FRAME answers. -/
namespace Sys2Proof.Machine

/-! ### Blocks -/

theorem hasRelease_iff {c : Params} {k : BitVec 8} : c.hasRelease k = true ↔ k = c.cmdUp ∨ k = c.cmdDown := by
  simp [Params.hasRelease]

theorem blocks_eq (c : Params) (k : BitVec 8) : c.blocks k = if k = c.cmdUp ∨ k = c.cmdDown then 2 else 1 :=
  if_congr hasRelease_iff rfl rfl

theorem blockSeq_eq_flatten (p : PacketWord) (n : Nat) : blockSeq p n = (List.replicate n (pulseSeq p)).flatten := by
  induction n with
  | zero => rfl
  | succ n ih => rw [blockSeq, ih, List.replicate_succ, List.flatten_cons]

/-- Copy j of a packet's sequence begins at pair 66 j of the block. -/
theorem blockSeq_getElem? (p : PacketWord) {n j k : Nat} (hj : j < n) (hk : k < 66) :
    (blockSeq p n)[66 * j + k]? = (pulseSeq p)[k]? := by
  induction n generalizing j with
  | zero => omega
  | succ n ih =>
    rw [blockSeq]
    cases j with
    | zero => rw [Nat.mul_zero, Nat.zero_add, List.getElem?_append_left (by rwa [pulseSeq_length])]
    | succ j =>
      rw [List.getElem?_append_right (by rw [pulseSeq_length]; omega), pulseSeq_length,
        show 66 * (j + 1) + k - 66 = 66 * j + k by omega, ih (by omega)]

/-! ### The layout of a frame -/

/-- The record that packet j of a frame carries: RELEASE in the second block (43_frame_sync.md R191). -/
def Params.frameRecord (c : Params) (r : Record) (j : Nat) : Record :=
  if j < 6 then r else { r with command := c.cmdRelease }

theorem frameRecord_pack (c : Params) (r : Record) (j : Nat) :
    (c.frameRecord r j).pack = packWord r.device r.channel (if j < 6 then r.command else c.cmdRelease) := by
  unfold Params.frameRecord
  split <;> rfl

/-- The packets of a frame, block by block (43_frame_sync.md R191). -/
def packetsSeq (c : Params) (r : Record) : List Template :=
  blockSeq r.pack repeats
    ++ if c.hasRelease r.command then blockSeq { r with command := c.cmdRelease }.pack repeats else []

theorem frameSeq_eq (c : Params) (r : Record) :
    frameSeq c r = List.replicate 16 .zero ++ packetsSeq c r ++ List.replicate 16 .zero := by
  rw [frameSeq, List.append_assoc (List.replicate preamblePairs _)]
  rfl

section
variable (c : Params) (r : Record)

theorem packetsSeq_length : (packetsSeq c r).length = 396 * c.blocks r.command := by
  unfold packetsSeq Params.blocks
  split <;> simp [repeats]

theorem frameSeq_length_eq : (frameSeq c r).length = 32 + 396 * c.blocks r.command := by
  rw [frameSeq_length]
  unfold framePairs preamblePairs repeats pktPairs postamblePairs
  omega

theorem packetsSeq_getElem? {j k : Nat} (hj : j < 6 * c.blocks r.command) (hk : k < 66) :
    (packetsSeq c r)[66 * j + k]? = (pulseSeq (c.frameRecord r j).pack)[k]? := by
  unfold packetsSeq Params.frameRecord
  by_cases first : j < 6
  · rw [if_pos first, List.getElem?_append_left (by rw [blockSeq_length, repeats]; omega)]
    exact blockSeq_getElem? _ first hk
  · have release : c.hasRelease r.command = true := by
      by_contra single
      rw [Params.blocks, if_neg single] at hj
      exact first hj
    rw [Params.blocks, if_pos release] at hj
    rw [if_neg first, if_pos release,
      List.getElem?_append_right (by rw [blockSeq_length, repeats]; omega), blockSeq_length, repeats,
      show 66 * j + k - 66 * 6 = 66 * (j - 6) + k by omega, blockSeq_getElem? _ (by omega) hk]

theorem frameSeq_getElem?_preamble {j : Nat} (hj : j < 16) : (frameSeq c r)[j]? = some .zero := by
  rw [frameSeq_eq, List.append_assoc, List.getElem?_append_left (by simpa using hj),
    List.getElem?_replicate_of_lt hj]

theorem frameSeq_getElem?_packet {j k : Nat} (hj : j < 6 * c.blocks r.command) (hk : k < 66) :
    (frameSeq c r)[16 + 66 * j + k]? = (pulseSeq (c.frameRecord r j).pack)[k]? := by
  have inside : 66 * j + k < (packetsSeq c r).length := by
    rw [packetsSeq_length]
    omega
  rw [frameSeq_eq, List.append_assoc, List.getElem?_append_right (by rw [List.length_replicate]; omega),
    List.length_replicate, show 16 + 66 * j + k - 16 = 66 * j + k by omega, List.getElem?_append_left inside,
    packetsSeq_getElem? c r hj hk]

theorem frameSeq_getElem?_postamble {j : Nat} (hj : j < 16) :
    (frameSeq c r)[16 + 396 * c.blocks r.command + j]? = some .zero := by
  have before : (List.replicate 16 Template.zero ++ packetsSeq c r).length = 16 + 396 * c.blocks r.command := by
    rw [List.length_append, List.length_replicate, packetsSeq_length]
  rw [frameSeq_eq, ← before, List.getElem?_append_right (Nat.le_add_right ..), Nat.add_sub_cancel_left,
    List.getElem?_replicate_of_lt hj]

end

/-- Settles O33: packet j of the frame is the pulse sequence of its record's packet. -/
theorem framePositions : Obligations.FramePositions := by
  intro c r j
  rw [← blocks_eq, ← frameRecord_pack]
  refine ⟨frameSeq_length_eq c r, fun hj => ⟨frameSeq_getElem?_preamble c r hj, frameSeq_getElem?_postamble c r hj⟩,
    fun hj => ?_⟩
  have entry {k : Nat} (hk : k < 66) := frameSeq_getElem?_packet c r hj hk
  refine ⟨entry (k := 0) (by omega), ?_, fun k lo hi => ?_⟩
  · rw [entry (by omega), pulseSeq_getElem?_suffix]
  · rw [entry (by omega), pulseSeq_getElem?_bit _ lo hi, bitTemplate]

/-! ### TX_FRAME -/

theorem exec_txFrame_of_full {s : State} (full : s.cfg.txCap < framePairs (s.cfg.blocks s.command)) :
    exec .txFrame s = .next { s with err := .txFull } := by
  rw [exec, execTxFrame_eq, if_pos full]
  rfl

theorem exec_txFrame_of_fits {s : State} (fits : framePairs (s.cfg.blocks s.command) ≤ s.cfg.txCap) :
    exec .txFrame s = .next (s.sentFrame.finish .none) := by
  rw [exec, execTxFrame_eq, if_neg (Nat.not_lt_of_le fits)]

/-- TX_FRAME writes the registers of 43_frame_sync.md R194 and the stored pairs. -/
theorem sentFrame_eq (s : State) : s.sentFrame = { s with
    mem := s.sentFrame.mem
    carrier := 0#32
    txCount := BitVec.ofNat 32 (framePairs (s.cfg.blocks s.command))
    txHint := BitVec.ofNat 32 (framePairs (s.cfg.blocks s.command))
    txPkts := BitVec.ofNat 32 (6 * s.cfg.blocks s.command) } := by
  have emitted := emitAll_eq (frameSeq s.cfg s.inputRecord) (s.beginFrame (framePairs (s.cfg.blocks s.command)))
  rw [State.beginFrame_txCount, BitVec.zero_add, frameSeq_length] at emitted
  rw [sentFrame_mem]
  exact congrArg (fun e : State => { e with txPkts := BitVec.ofNat 32 (repeats * s.cfg.blocks s.command) }) emitted

section
variable {s : State} (nowrap : framePairs (s.cfg.blocks s.command) < 2 ^ 32)
include nowrap

/-- The frame begins at entry 0, whatever stood in TXMEM, and TX_COUNT does not wrap on the way. -/
theorem beginFrame_nowrap (n : Nat) :
    (s.beginFrame n).txCount.toNat + (frameSeq s.cfg s.inputRecord).length < 2 ^ 32 := by
  rw [frameSeq_length]
  exact (Nat.zero_add _).trans_lt nowrap

theorem sentFrame_sendsFrom : s.sentFrame.sendsFrom 0 (frameSeq s.cfg s.inputRecord) := by
  intro i t entry
  rw [Nat.zero_add, txPair_sentFrame, txPair_emitAll (beginFrame_nowrap nowrap _) (Nat.zero_le i)]
  exact congrArg (Option.map templatePair) entry

theorem readByte_sentFrame_of_outside {a : Nat}
    (ha : a < txMarkAddr 0 ∨ txMarkAddr (framePairs (s.cfg.blocks s.command)) ≤ a) :
    s.sentFrame.mem.readByte a = s.mem.readByte a := by
  rw [sentFrame_mem, readByte_emitAll_of_outside _ _ a (beginFrame_nowrap nowrap _)]
  · rfl
  · rw [frameSeq_length]
    exact ha.imp_right ((congrArg txMarkAddr (Nat.zero_add _)).trans_le ·)

end

/-- n of 43_frame_sync.md R192. -/
theorem framePairs_eq (c : Params) (k : BitVec 8) :
    framePairs (c.blocks k) = if k = c.cmdUp ∨ k = c.cmdDown then 824 else 428 := by
  rw [blocks_eq]
  split <;> rfl

theorem frameSeq_eq_copies (c : Params) (r : Record) : frameSeq c r =
    List.replicate 16 .zero ++ (List.replicate 6 (pulseSeq r.pack)).flatten
      ++ (if r.command = c.cmdUp ∨ r.command = c.cmdDown then
        (List.replicate 6 (pulseSeq { r with command := c.cmdRelease }.pack)).flatten else [])
      ++ List.replicate 16 .zero := by
  rw [frameSeq_eq, packetsSeq, blockSeq_eq_flatten, blockSeq_eq_flatten, ← List.append_assoc,
    if_congr hasRelease_iff rfl rfl]
  rfl

/-- Settles O32: TX_FRAME is the emission of the frame behind an emptied sequence. -/
theorem txFrameSendsWholeFrame : Obligations.TxFrameSendsWholeFrame := by
  refine ⟨fun _ op => decode_eq_ok_iff.2 ⟨op, trivial⟩, fun s hcap => ?_⟩
  intro rel n packet release
  have pairs : framePairs (s.cfg.blocks s.command) = n := framePairs_eq s.cfg s.command
  refine ⟨fun full => exec_txFrame_of_full (pairs ▸ full), fun fits => ?_⟩
  have nowrap : framePairs (s.cfg.blocks s.command) < 2 ^ 32 := by omega
  have packets : BitVec.ofNat 32 (6 * s.cfg.blocks s.command) = if rel then 12#32 else 6#32 := by
    rw [blocks_eq]
    split <;> rfl
  refine ⟨_, exec_txFrame_of_fits (pairs ▸ fits), ?_, fun a ha => ?_, ?_⟩
  · intro i t entry
    rw [txPair_finish]
    exact sentFrame_sendsFrom nowrap i t ((congrArg (·[i]?) (frameSeq_eq_copies s.cfg s.inputRecord)).trans entry)
  · rw [State.finish_mem, readByte_sentFrame_of_outside nowrap (pairs ▸ ha)]
  · rw [← pairs, ← packets]
    exact congrArg (State.finish · .none) (sentFrame_eq s)

end Sys2Proof.Machine
end

section
/-! The scan of RX_FRAME (43_frame_sync.md R198 to R203): its steps, its loop, where it ends, and which commands
complete. -/
namespace Sys2Proof.Machine

/-! ### One scan step -/

section
variable {s : State} {c : Scan}

theorem scanStep_of_packet {r : Parse × Nat} (hit : s.pairInWindow .pktPrefix c.pos)
    (read : s.decodePacket c.pos = .ok r) : s.scanStep c = .ok (c.packet r) := by
  rw [State.scanStep, pairMatch_true_iff.2 hit]
  simp only [read]

theorem scanStep_of_packet_fault {f : Fault} (hit : s.pairInWindow .pktPrefix c.pos)
    (read : s.decodePacket c.pos = .error f) : s.scanStep c = .error f := by
  rw [State.scanStep, pairMatch_true_iff.2 hit]
  simp only [read]

theorem scanStep_of_fault {i : Nat} (fault : s.pairFaultsAt .pktPrefix c.pos i) :
    s.scanStep c = .error (.unwrittenSample i) := by
  rw [State.scanStep, pairMatch_error_iff.2 fault]

section
variable (miss : s.pairMisses .pktPrefix c.pos)
include miss

theorem scanStep_of_nudge (hit : s.pairInWindow .pktPrefix (c.pos + 1)) : s.scanStep c = .ok c.nudge := by
  rw [State.scanStep, pairMatch_false_iff.2 miss, pairMatch_true_iff.2 hit]

theorem scanStep_of_skip (next : s.pairMisses .pktPrefix (c.pos + 1)) : s.scanStep c = .ok c.skip := by
  rw [State.scanStep, pairMatch_false_iff.2 miss, pairMatch_false_iff.2 next]

theorem scanStep_of_next_fault {i : Nat} (fault : s.pairFaultsAt .pktPrefix (c.pos + 1) i) :
    s.scanStep c = .error (.unwrittenSample i) := by
  rw [State.scanStep, pairMatch_false_iff.2 miss, pairMatch_error_iff.2 fault]

end

end

/-- Settles O46: each clause is one way through the step's two tests. -/
theorem scanStepPacketThenNudgeThenSkip : Obligations.ScanStepPacketThenNudgeThenSkip := by
  refine fun s c => ⟨fun hit => ⟨fun record q read => ?_, fun code q read => ?_, fun f read => ?_⟩,
    fun miss => ⟨fun hit => ?_, fun next => ?_, fun i fault => ?_⟩, fun i fault => ?_⟩
  · exact ⟨_, scanStep_of_packet hit read, rfl, rfl, rfl, rfl, rfl, Option.or_some⟩
  · exact scanStep_of_packet hit read
  · exact scanStep_of_packet_fault hit read
  · exact scanStep_of_nudge miss hit
  · exact scanStep_of_skip miss next
  · exact scanStep_of_next_fault miss fault
  · exact scanStep_of_fault fault

/-! ### The loop -/

theorem scanRuns_stops {s : State} {c d : Scan} (run : s.ScanRuns c d) : s.rxLen.toNat < d.pos + 132 := by
  induction run with
  | done c stop => exact stop
  | step _ _ _ _ _ _ ih => exact ih

/-- A scan has latched a record exactly if it has counted a valid packet (43_frame_sync.md R200). -/
def Scan.LatchCounts (c : Scan) : Prop := c.first.isSome = true ↔ 0 < c.pkts

theorem scanStep_latchCounts {s : State} {c c' : Scan} (latch : c.LatchCounts) (h : s.scanStep c = .ok c') :
    c'.LatchCounts := by
  rcases scanStep_cases h with ⟨-, ⟨p, q⟩, -, rfl⟩ | ⟨-, -, rfl⟩ | ⟨-, -, rfl⟩
  · cases p with
    | ok r => simp [Scan.LatchCounts, Scan.packet]
    | absent code => exact latch
  · exact latch
  · exact latch

theorem scanLoop_latchCounts {s : State} {n : Nat} {c : Scan} (h : s.scanLoop n Scan.start = .ok c) :
    c.LatchCounts :=
  scanLoop_induction (fun _ _ latch _ => scanStep_latchCounts latch) (by simp [Scan.LatchCounts, Scan.start]) h

/-! ### RX_FRAME -/

theorem firstResult_valid (s : State) (first : Option Record) :
    (s.publish (firstResult first)).valid = first.isSome := by
  cases first <;> rfl

section
variable (s : State) (c : Scan)

@[simp] theorem endFrame_rxPos : (s.endFrame c).rxPos = BitVec.ofNat 32 c.pos := by simp [State.endFrame]
@[simp] theorem endFrame_rxPkts : (s.endFrame c).rxPkts = BitVec.ofNat 32 c.pkts := by simp [State.endFrame]
@[simp] theorem endFrame_rxBad : (s.endFrame c).rxBad = BitVec.ofNat 32 c.bad := by simp [State.endFrame]
@[simp] theorem endFrame_rxSkips : (s.endFrame c).rxSkips = BitVec.ofNat 32 c.skips := by simp [State.endFrame]
@[simp] theorem endFrame_rxNudges : (s.endFrame c).rxNudges = BitVec.ofNat 32 c.nudges := by simp [State.endFrame]
@[simp] theorem endFrame_valid : (s.endFrame c).valid = c.first.isSome := firstResult_valid _ _

end

theorem firstResult_err_ne_short (s : State) (first : Option Record) :
    (s.publish (firstResult first)).err ≠ .short := by
  cases first <;> simp [firstResult]

theorem endFrame_of_first {s : State} {c : Scan} {r : Record} (h : c.first = some r) : s.endFrame c = { s with
    rxPos := BitVec.ofNat 32 c.pos
    rxPkts := BitVec.ofNat 32 c.pkts
    rxBad := BitVec.ofNat 32 c.bad
    rxSkips := BitVec.ofNat 32 c.skips
    rxNudges := BitVec.ofNat 32 c.nudges
    rxDevice := r.device, rxChannel := r.channel, rxCommand := r.command, valid := true, err := .none } := by
  rw [State.endFrame, h]
  rfl

theorem endFrame_of_none {s : State} {c : Scan} (h : c.first = none) : s.endFrame c = { s with
    rxPos := BitVec.ofNat 32 c.pos
    rxPkts := BitVec.ofNat 32 c.pkts
    rxBad := BitVec.ofNat 32 c.bad
    rxSkips := BitVec.ofNat 32 c.skips
    rxNudges := BitVec.ofNat 32 c.nudges
    rxDevice := 0#24, rxChannel := 0#16, rxCommand := 0#8, valid := false, err := .notFound } := by
  rw [State.endFrame, h]
  rfl

theorem exec_rxFrame_of_short {s : State} (short : s.rxLen.toNat < s.cfg.minRxSamples) : exec .rxFrame s =
    .next { s with
      rxPos := 0#32, rxDevice := 0#24, rxChannel := 0#16, rxCommand := 0#8,
      rxPkts := 0#32, rxBad := 0#32, rxSkips := 0#32, rxNudges := 0#32, valid := false, err := .short } := by
  rw [exec, execRxFrame, if_pos short]
  rfl

section
variable {s : State} (enough : s.cfg.minRxSamples ≤ s.rxLen.toNat)
include enough

theorem exec_rxFrame_of_enough :
    exec .rxFrame s = afterRead (s.scanLoop s.rxLen.toNat Scan.start) s.endFrame := by
  rw [exec, execRxFrame, if_neg (Nat.not_lt_of_le enough)]

theorem exec_rxFrame_next {t : State} (h : exec .rxFrame s = .next t) :
    ∃ c, s.scanLoop s.rxLen.toNat Scan.start = .ok c ∧ t = s.endFrame c :=
  afterRead_next ((exec_rxFrame_of_enough enough).symm.trans h)

theorem exec_rxFrame_of_scanRuns {c : Scan} (run : s.ScanRuns Scan.start c) :
    exec .rxFrame s = .next (s.endFrame c) := by
  rw [exec_rxFrame_of_enough enough, scanLoop_of_scanRuns run (Nat.le_add_left ..)]
  rfl

theorem exec_rxFrame_fault_iff {f : Fault} : s.ScanFaults Scan.start f ↔ exec .rxFrame s = .fault f := by
  rw [exec_rxFrame_of_enough enough]
  constructor
  · intro faults
    rw [scanLoop_of_scanFaults faults (Nat.le_add_left ..)]
    rfl
  · intro h
    cases read : s.scanLoop s.rxLen.toNat Scan.start with
    | ok c => simp [read, afterRead] at h
    | error g =>
      obtain rfl : g = f := by simpa [read, afterRead] using h
      exact scanFaults_of_scanLoop read

end

/-- Settles O45: the SHORT outcome scans nothing, and the end of a scan is a record or NOT_FOUND. -/
theorem rxFrameShortReadsNothing : Obligations.RxFrameShortReadsNothing := by
  refine ⟨fun s t enough h => ?_, fun s => exec_rxFrame_of_short⟩
  obtain ⟨c, -, rfl⟩ := exec_rxFrame_next enough h
  exact firstResult_err_ne_short _ _

/-- Settles O47: RX_LEN iterations are fuel for every run and every fault of the loop. -/
theorem rxFrameIsTheWhileLoop : Obligations.RxFrameIsTheWhileLoop := by
  refine ⟨fun _ op => decode_eq_ok_iff.2 ⟨op, trivial⟩, fun s enough => ?_⟩
  intro answers
  have answered (c : Scan) (run : s.ScanRuns Scan.start c) : answers c := by
    have ends := exec_rxFrame_of_scanRuns enough run
    exact ⟨fun r first => endFrame_of_first first ▸ ends, fun empty => endFrame_of_none empty ▸ ends⟩
  refine ⟨answered, fun t h => ?_, fun f => exec_rxFrame_fault_iff enough, fun written => ?_⟩
  · obtain ⟨c, read, -⟩ := exec_rxFrame_next enough h
    exact ⟨c, scanRuns_of_scanLoop read (Nat.le_add_left ..)⟩
  · obtain ⟨c, read⟩ := scanLoop_completes written s.rxLen.toNat Scan.start
    have run := scanRuns_of_scanLoop read (Nat.le_add_left ..)
    exact ⟨c, run, answered c run⟩

/-- Settles O48: the counters count scan steps, each moves the cursor, and the cursor stays in the stream. -/
theorem rxFrameStopsWithinStream : Obligations.RxFrameStopsWithinStream := by
  intro s t enough h
  obtain ⟨c, read, rfl⟩ := exec_rxFrame_next enough h
  obtain ⟨counted, inside⟩ := scanLoop_bounds read
  have stop := scanRuns_stops (scanRuns_of_scanLoop read (Nat.le_add_left ..))
  have latch := scanLoop_latchCounts read
  have len := s.rxLen.isLt
  unfold Scan.count at counted
  have word {n : Nat} (hn : n ≤ s.rxLen.toNat) : (BitVec.ofNat 32 n).toNat = n :=
    Nat.mod_eq_of_lt (Nat.lt_of_le_of_lt hn len)
  rw [endFrame_rxPos, endFrame_rxPkts, endFrame_rxBad, endFrame_rxSkips, endFrame_rxNudges, endFrame_valid,
    word inside, word (n := c.pkts) (by omega), word (n := c.bad) (by omega), word (n := c.skips) (by omega),
    word (n := c.nudges) (by omega)]
  exact ⟨inside, stop, counted, latch⟩

/-! ### Completion -/

theorem afterRead_completes {α : Type} {r : Except Fault α} (h : ∃ a, r = .ok a) (k : α → State) :
    ∃ t, afterRead r k = .next t := by
  obtain ⟨a, rfl⟩ := h
  exact ⟨_, rfl⟩

/-- Settles O39: what reads samples completes on a written stream, and no other command can stop. -/
theorem commandsCompleteOnWrittenStream : Obligations.CommandsCompleteOnWrittenStream := by
  intro i s written
  cases i with
  | rxMatch t off => exact afterRead_completes (pairMatch_completes written t _) _
  | rxExpect t => exact afterRead_completes (pairMatch_completes written t _) _
  | rxPkt => exact afterRead_completes (decodePacket_completes written _) _
  | rxFrame =>
    rcases Nat.lt_or_ge s.rxLen.toNat s.cfg.minRxSamples with short | enough
    · exact ⟨_, exec_rxFrame_of_short short⟩
    · rw [exec_rxFrame_of_enough enough]
      exact afterRead_completes (scanLoop_completes written _ _) _
  | nop | cksum | pack | unpack | txClear | emitPkt | txFrame | rxAdvance | softReset => exact ⟨_, rfl⟩

end Sys2Proof.Machine
end

section
/-! Frames received (43_frame_sync.md R204 to R206): the rendering of a frame by its packets, and the scan of a clean
frame and of one with an extra sample. -/
namespace Sys2Proof.Machine

/-! ### Parts of a rendering -/

theorem render_drop (ts : List Template) (n : Nat) : render (ts.drop n) = (render ts).drop (2 * n) := by
  induction n generalizing ts with
  | zero => rfl
  | succ n ih =>
    cases ts with
    | nil => simp [render]
    | cons t ts => exact ih ts

theorem render_take (ts : List Template) (n : Nat) : render (ts.take n) = (render ts).take (2 * n) := by
  induction n generalizing ts with
  | zero => rfl
  | succ n ih =>
    cases ts with
    | nil => simp [render]
    | cons t ts => exact congrArg (fun vs => (markOf t : Int) :: -(spaceOf t : Int) :: vs) (ih ts)

section
variable (c : Params) (r : Record)

theorem frameSeq_take_preamble : (frameSeq c r).take 16 = List.replicate 16 .zero := by
  rw [frameSeq_eq, List.append_assoc, List.take_left' List.length_replicate]

theorem frameSeq_packet {j : Nat} (hj : j < 6 * c.blocks r.command) :
    ((frameSeq c r).drop (16 + 66 * j)).take 66 = pulseSeq (c.frameRecord r j).pack := by
  refine List.ext_getElem? fun k => ?_
  rw [List.getElem?_take, List.getElem?_drop]
  split
  case isTrue hk => exact frameSeq_getElem?_packet c r hj hk
  case isFalse hk => exact (List.getElem?_eq_none (by rw [pulseSeq_length]; omega)).symm

theorem render_frameSeq_length : (render (frameSeq c r)).length = 64 + 792 * c.blocks r.command := by
  rw [render_length, frameSeq_length_eq]
  omega

theorem render_frameSeq_packet {j : Nat} (hj : j < 6 * c.blocks r.command) :
    ((render (frameSeq c r)).drop (32 + 132 * j)).take 132 = render (pulseSeq (c.frameRecord r j).pack) := by
  rw [← frameSeq_packet c r hj, render_take, render_drop, show 2 * (16 + 66 * j) = 32 + 132 * j by omega]

end

/-! ### A frame in the stream -/

section
variable {s : State} {p : Nat} {us vs : List Int}

theorem holdsSamples_append (h : s.holdsSamples p (us ++ vs)) :
    s.holdsSamples p us ∧ s.holdsSamples (p + us.length) vs := by
  refine ⟨fun i v entry => h i v ?_, fun i v entry => ?_⟩
  · rw [List.getElem?_append_left (List.getElem?_eq_some_iff.1 entry).1, entry]
  · rw [Nat.add_assoc]
    refine h _ v ?_
    rw [List.getElem?_append_right (Nat.le_add_right ..), Nat.add_sub_cancel_left, entry]

theorem holdsSamples_take (h : s.holdsSamples p vs) (n : Nat) : s.holdsSamples p (vs.take n) :=
  (holdsSamples_append (by rwa [List.take_append_drop])).1

theorem holdsSamples_drop (h : s.holdsSamples p vs) (n : Nat) : s.holdsSamples (p + n) (vs.drop n) := by
  intro i v entry
  rw [Nat.add_assoc]
  exact h _ v (by rwa [← List.getElem?_drop])

end

section
variable {s : State} {r : Record} {j m : Nat} (inside : m < 6 * s.cfg.blocks r.command)
include inside

/-- In the first part of a frame, cut before packet j, the packets before j stand in their places. -/
theorem holdsSamples_packet_before (holds : s.holdsSamples 0 ((render (frameSeq s.cfg r)).take (32 + 132 * j)))
    (before : m < j) : s.holdsSamples (32 + 132 * m) (render (pulseSeq (s.cfg.frameRecord r m).pack)) := by
  have part := holdsSamples_take (holdsSamples_drop holds (32 + 132 * m)) 132
  rwa [Nat.zero_add, List.drop_take, List.take_take, Nat.min_eq_left (by omega),
    render_frameSeq_packet _ _ inside] at part

/-- In the second part, cut before packet j and standing at p, the packets from j on follow each other. -/
theorem holdsSamples_packet_from {p : Nat} (holds : s.holdsSamples p ((render (frameSeq s.cfg r)).drop (32 + 132 * j)))
    (later : j ≤ m) : s.holdsSamples (p + 132 * (m - j)) (render (pulseSeq (s.cfg.frameRecord r m).pack)) := by
  have part := holdsSamples_take (holdsSamples_drop holds (132 * (m - j))) 132
  rwa [List.drop_drop, show 32 + 132 * j + 132 * (m - j) = 32 + 132 * m by omega,
    render_frameSeq_packet _ _ inside] at part

theorem holdsSamples_packet (holds : s.holdsSamples 0 (render (frameSeq s.cfg r))) :
    s.holdsSamples (32 + 132 * m) (render (pulseSeq (s.cfg.frameRecord r m).pack)) := by
  have part := holdsSamples_packet_from (j := 0) inside (holdsSamples_drop holds 32) (Nat.zero_le m)
  rwa [Nat.zero_add] at part

end

theorem holdsSamples_preamble {s : State} {r : Record} {n : Nat}
    (holds : s.holdsSamples 0 ((render (frameSeq s.cfg r)).take (32 + n))) :
    s.holdsSamples 0 (render (List.replicate 16 .zero)) := by
  have part := holdsSamples_take holds 32
  rwa [List.take_take, Nat.min_eq_left (Nat.le_add_right ..), show 32 = 2 * 16 from rfl, ← render_take,
    frameSeq_take_preamble] at part

/-- The parser reads packet m of a frame as its record, wherever the packet stands. -/
theorem decodePacket_frameRecord {s : State} {r : Record} {m p : Nat} (tol : s.tol.toNat ≤ 100)
    (inside : p + 132 ≤ s.rxLen.toNat) (holds : s.holdsSamples p (render (pulseSeq (s.cfg.frameRecord r m).pack))) :
    s.decodePacket p = .ok (.ok (s.cfg.frameRecord r m), p + 132) := by
  rw [decodePacket_rendered tol inside holds, validate_pack]

/-- Settles O51: a frame with RELEASE has twelve packets, each the rendering of its record's packet. -/
theorem upDownFrameCarriesRelease : Obligations.UpDownFrameCarriesRelease := by
  intro s r j tol release len holds hj
  have two : s.cfg.blocks r.command = 2 := (blocks_eq ..).trans (if_pos release)
  exact decodePacket_frameRecord tol (by omega) (holdsSamples_packet (by omega) holds)

/-! ### Where PREFIX misses -/

section
variable {s : State} {t u : Template} {p : Nat}

/-- Up to 94 the smallest mark of PREFIX is above the mark of ZERO. -/
theorem pairMisses_prefix_of_pairExact_zero (tol : s.tol.toNat ≤ 94) (own : s.pairExact .zero p) :
    s.pairMisses .pktPrefix p := by
  obtain ⟨-, mark, -⟩ := own
  refine pairMisses_of_mark_outside mark ?_
  rintro ⟨-, lo, -⟩
  rw [markOf_toInt] at lo
  simp only [markOf] at lo
  omega

/-- A space is negative, so it is no mark. -/
theorem pairMisses_at_space (own : s.pairExact u p) : s.pairMisses t (p + 1) := by
  obtain ⟨-, -, space⟩ := own
  refine pairMisses_of_mark_outside space ?_
  rintro ⟨nonneg, -, -⟩
  rw [spaceOf_toInt] at nonneg
  cases u <;> simp [spaceOf] at nonneg

/-- A mark is positive, so it is no space of a sample before it, whatever that sample is. -/
theorem pairMisses_before_mark {x : Word} (written : s.rxWord p = some x) (own : s.pairExact u (p + 1)) :
    s.pairMisses t p := by
  obtain ⟨-, mark, -⟩ := own
  refine pairMisses_of_pairWritten (pairWritten_of_rxWord written mark) ?_
  rintro ⟨-, m, sp, -, space, -, -, -, nonpos, -, -⟩
  obtain rfl : _ = sp := Option.some.inj (mark.symm.trans space)
  rw [markOf_toInt] at nonpos
  cases u <;> simp [markOf] at nonpos

end

/-! ### The scan of a frame -/

/-- Iterations of the scan's loop (43_frame_sync.md R201), any number of them. -/
def State.ScanSteps (s : State) : Scan → Scan → Prop :=
  Relation.ReflTransGen fun c c' => c.pos + pktSamples ≤ s.rxLen.toNat ∧ s.scanStep c = .ok c'

theorem scanRuns_of_scanSteps {s : State} {c d : Scan} (steps : s.ScanSteps c d)
    (stop : s.rxLen.toNat < d.pos + pktSamples) : s.ScanRuns c d := by
  induction steps using Relation.ReflTransGen.head_induction_on with
  | refl => exact .done d stop
  | head first _ ih =>
    obtain ⟨room, taken⟩ := first
    exact .step _ _ _ room taken ih

/-- The scan of r's frame before packet m, with the preamble skipped and m packets counted, when nudges have moved
it `late` samples on. -/
def Scan.beforePacket (r : Record) (m late : Nat) : Scan where
  pos := 32 + 132 * m + late
  first := if m = 0 then none else some r
  pkts := m
  bad := 0
  skips := 16
  nudges := late

/-- Packet 0 carries the record itself, and no later packet replaces what it latched. -/
theorem packet_beforePacket (c : Params) (r : Record) (m late : Nat) :
    (Scan.beforePacket r m late).packet (.ok (c.frameRecord r m), 32 + 132 * m + late + 132) =
      Scan.beforePacket r (m + 1) late := by
  rw [show 32 + 132 * m + late + 132 = 32 + 132 * (m + 1) + late by omega]
  cases m <;> rfl

section
variable {s : State} {r : Record} {m n late : Nat}

/-- The scan skips the preamble pair by pair: PREFIX matches at no mark of it and at no space of it. -/
theorem scanSteps_preamble (tol : s.tol.toNat ≤ 94) (enough : 164 ≤ s.rxLen.toNat)
    (holds : s.holdsSamples 0 (render (List.replicate 16 .zero))) :
    s.ScanSteps Scan.start (Scan.beforePacket r 0 0) := by
  have skips (k : Nat) (hk : k ≤ 16) : s.ScanSteps Scan.start { Scan.start with pos := 2 * k, skips := k } := by
    induction k with
    | zero => exact .refl
    | succ k ih =>
      have own : s.pairExact .zero (0 + 2 * k) := pairExact_of_holdsSamples holds
        (by rw [List.length_replicate]; omega) (List.getElem?_replicate_of_lt hk)
      rw [Nat.zero_add] at own
      exact (ih (Nat.le_of_succ_le hk)).tail ⟨by simp only [pktSamples]; omega,
        scanStep_of_skip (pairMisses_prefix_of_pairExact_zero tol own) (pairMisses_at_space own)⟩
  exact skips 16 le_rfl

section
variable (inside : 32 + 132 * m + late + 132 ≤ s.rxLen.toNat)
  (holds : s.holdsSamples (32 + 132 * m + late) (render (pulseSeq (s.cfg.frameRecord r m).pack)))
include inside holds

theorem pairExact_prefix_of_packet : s.pairExact .pktPrefix (32 + 132 * m + late) :=
  pairExact_of_holdsSamples (k := 0) holds (by rwa [pulseSeq_length]) rfl

theorem scanStep_packet_of_frame (tol : s.tol.toNat ≤ 100) :
    s.scanStep (Scan.beforePacket r m late) = .ok (Scan.beforePacket r (m + 1) late) := by
  have own := pairExact_prefix_of_packet inside holds
  exact (scanStep_of_packet (c := Scan.beforePacket r m late) (pairInWindow_of_pairExact tol own)
    (decodePacket_frameRecord tol inside holds)).trans (congrArg Except.ok (packet_beforePacket ..))

end

/-- The scan counts packet after packet, if they follow each other in the stream. -/
theorem scanSteps_packets (tol : s.tol.toNat ≤ 100) (order : m ≤ n)
    (inside : 32 + 132 * n + late ≤ s.rxLen.toNat)
    (holds : ∀ k, m ≤ k → k < n →
      s.holdsSamples (32 + 132 * k + late) (render (pulseSeq (s.cfg.frameRecord r k).pack))) :
    s.ScanSteps (Scan.beforePacket r m late) (Scan.beforePacket r n late) := by
  induction n, order using Nat.le_induction with
  | base => exact .refl
  | succ n order ih =>
    refine (ih (by omega) fun k lo hi => holds k lo (by omega)).tail ⟨?_, ?_⟩
    · simp only [Scan.beforePacket, pktSamples]
      omega
    · exact scanStep_packet_of_frame (by omega) (holds n order (Nat.lt_succ_self n)) tol

end

/-- What RX_FRAME writes at the end of a frame of b blocks. -/
theorem endFrame_beforePacket (s : State) (r : Record) (late : Nat) {b : Nat} (hb : 0 < b) :
    s.endFrame (Scan.beforePacket r (6 * b) late) = { s with
      rxDevice := r.device, rxChannel := r.channel, rxCommand := r.command, valid := true, err := .none,
      rxPkts := BitVec.ofNat 32 (6 * b), rxBad := 0#32, rxSkips := 16#32, rxNudges := BitVec.ofNat 32 late,
      rxPos := BitVec.ofNat 32 (32 + late + 792 * b) } := by
  have latched : (Scan.beforePacket r (6 * b) late).first = some r := if_neg (by omega)
  have cursor : 32 + 132 * (6 * b) + late = 32 + late + 792 * b := by omega
  rw [endFrame_of_first latched, ← cursor]
  rfl

theorem blocks_pos (c : Params) (k : BitVec 8) : 0 < c.blocks k := by
  unfold Params.blocks
  split <;> decide

/-- Settles O49: sixteen skips, then every packet of the frame, and the postamble is too short for another. -/
theorem cleanFrameDecodes : Obligations.CleanFrameDecodes := by
  intro s r minimum tol
  rw [← blocks_eq]
  intro b len holds
  have positive : 0 < b := blocks_pos ..
  have preamble : s.ScanSteps Scan.start (Scan.beforePacket r 0 0) :=
    scanSteps_preamble tol (by omega) (holdsSamples_preamble (holdsSamples_take holds (32 + 0)))
  have packets : s.ScanSteps (Scan.beforePacket r 0 0) (Scan.beforePacket r (6 * b) 0) :=
    scanSteps_packets (by omega) (Nat.zero_le _) (by omega) fun k _ hk => holdsSamples_packet hk holds
  have run := scanRuns_of_scanSteps (preamble.trans packets) (by simp only [Scan.beforePacket, pktSamples]; omega)
  rw [exec_rxFrame_of_scanRuns (by omega) run, endFrame_beforePacket s r 0 positive]

/-- Settles O50: at the extra sample PREFIX misses, since a mark follows it, and one nudge later it matches. -/
theorem extraSampleBeforePrefixIsRecovered : Obligations.ExtraSampleBeforePrefixIsRecovered := by
  intro s r j x minimum tol
  rw [← blocks_eq]
  intro b clean hj len holds
  have positive : 0 < b := blocks_pos ..
  have cut : (clean.take (32 + 132 * j)).length = 32 + 132 * j := by
    rw [List.length_take, render_frameSeq_length]
    omega
  obtain ⟨start, rest⟩ := holdsSamples_append holds
  obtain ⟨first, extra⟩ := holdsSamples_append start
  rw [List.length_append, cut, Nat.zero_add, List.length_singleton] at rest
  rw [cut, Nat.zero_add] at extra
  have late (k : Nat) (lo : j ≤ k) (hk : k < 6 * b) :
      s.holdsSamples (32 + 132 * k + 1) (render (pulseSeq (s.cfg.frameRecord r k).pack)) := by
    have packet := holdsSamples_packet_from hk rest lo
    rwa [show 32 + 132 * j + 1 + 132 * (k - j) = 32 + 132 * k + 1 by omega] at packet
  have preamble : s.ScanSteps Scan.start (Scan.beforePacket r 0 0) :=
    scanSteps_preamble tol (by omega) (holdsSamples_preamble first)
  have before : s.ScanSteps (Scan.beforePacket r 0 0) (Scan.beforePacket r j 0) :=
    scanSteps_packets (by omega) (Nat.zero_le j) (by omega) fun k _ hk =>
      holdsSamples_packet_before (hk.trans hj) first hk
  have own : s.pairExact .pktPrefix (32 + 132 * j + 1) := pairExact_prefix_of_packet (by omega) (late j le_rfl hj)
  have nudge : s.ScanSteps (Scan.beforePacket r j 0) (Scan.beforePacket r j 1) :=
    .single ⟨by simp only [Scan.beforePacket, pktSamples]; omega,
      scanStep_of_nudge (pairMisses_before_mark (extra 0 x rfl) own) (pairInWindow_of_pairExact (by omega) own)⟩
  have after : s.ScanSteps (Scan.beforePacket r j 1) (Scan.beforePacket r (6 * b) 1) :=
    scanSteps_packets (by omega) hj.le (by omega) late
  have run := scanRuns_of_scanSteps (preamble.trans (before.trans (nudge.trans after)))
    (by simp only [Scan.beforePacket, pktSamples]; omega)
  rw [exec_rxFrame_of_scanRuns (by omega) run, endFrame_beforePacket s r 1 positive]

end Sys2Proof.Machine
end

section
/-! The control commands (44_control.md): what NOP, SOFT_RESET and a reserved opcode answer. -/
namespace Sys2Proof.Machine

/-! ### NOP -/

theorem exec_nop (s : State) : exec .nop s = .next { s with err := .none } := rfl

/-- Settles O19: the word of opcode 0 has no operands, and NOP is `finish` alone. -/
theorem nopOnlyReportsSuccess : Obligations.NopOnlyReportsSuccess :=
  ⟨fun _ hw => decode_eq_ok_iff.2 ⟨hw, trivial⟩, exec_nop⟩

/-! ### SOFT_RESET -/

theorem exec_softReset (s : State) : exec .softReset s = .next s.resetRegisters := rfl

theorem readReg_resetRegisters (s : State) (r : Reg) : s.resetRegisters.readReg r = State.reset.readReg r := by
  cases r <;> rfl

theorem rxWord_resetRegisters (s : State) (i : Nat) : s.resetRegisters.rxWord i = s.rxWord i := by
  rw [State.rxWord, State.resetRegisters_mem, State.rxWord]

theorem rxw_resetRegisters (s : State) (i : Nat) : s.resetRegisters.rxw i = s.rxw i := by
  rw [State.rxw, rxWord_resetRegisters, State.rxw]

/-- Settles O20: the registers read as after reset, and the memory, which holds the samples and their marks, stays. -/
theorem softResetKeepsSamples : Obligations.SoftResetKeepsSamples := by
  refine ⟨fun _ hw => decode_eq_ok_iff.2 ⟨hw, trivial⟩, fun s => ⟨_, exec_softReset s, fun r => ?_, fun i => ?_,
    fun a => ?_, rfl⟩⟩
  · rw [readReg_resetRegisters, reset_readReg]
  · exact ⟨rxWord_resetRegisters s i, rxw_resetRegisters s i⟩
  · rw [State.resetRegisters_mem]

/-! ### Reserved opcodes -/

/-- A word whose opcode no row of 30_encoding.md R84 has decodes to no command. -/
theorem decode_of_reserved {w : Word}
    (reserved : w.toNat % 256 = 0x0C ∨ w.toNat % 256 = 0x0D ∨ w.toNat % 256 = 0x0E ∨ 0x10 ≤ w.toNat % 256) :
    decode w = .error (.reservedOpcode (opField w)) := by
  cases h : decode w with
  | ok i =>
    have opcode : w.toNat % 256 = i.opcode.toNat := (decode_eq_ok_iff.1 h).1
    have listed := i.opcode_listed
    omega
  | error e => rw [(decode_eq_error h).1]

theorem runCommand_of_decode_error {w : Word} {e : Reject} (h : decode w = .error e) (s : State) :
    s.runCommand w = .next { s with err := .illegalCmd } := by
  rw [State.runCommand, h]
  rfl

/-- Settles O5: the step runs the word, and a word that decodes to no command only reports ILLEGAL_CMD. -/
theorem reservedOpcodeSetsIllegalCmd : Obligations.ReservedOpcodeSetsIllegalCmd := by
  intro s rest addr w h ha hb reserved
  rw [step_cmd h ha hb, runCommand_of_decode_error (decode_of_reserved reserved)]

end Sys2Proof.Machine
end

section
/-! Stops (60_exceptions.md R250 to R254, R263): how a command can end, the fault of a receive command's first pair, and
the step that has nothing to serve. -/
namespace Sys2Proof.Machine

/-! ### How a command ends -/

/-- The fault a command may end with: that of a sample of the stream that the host never wrote (R254). -/
def State.FaultsUnwritten (s : State) (f : Fault) : Prop :=
  ∃ j, f = .unwrittenSample j ∧ j < s.rxLen.toNat ∧ s.rxw j = false

/-- The two ways a command may end: it completes, or it read a sample of the stream that was never written. -/
def State.MayEnd (s : State) (o : Host.Outcome State Fault Refusal) : Prop :=
  (∃ t, o = .next t) ∨ ∃ f, o = .fault f ∧ s.FaultsUnwritten f

section
variable {s : State}

theorem mayEnd_next (t : State) : s.MayEnd (.next t) := .inl ⟨t, rfl⟩

theorem faultsUnwritten_of_mayEnd {f : Fault} (h : s.MayEnd (.fault f)) : s.FaultsUnwritten f := by
  rcases h with ⟨t, next⟩ | ⟨g, same, unwritten⟩
  · cases next
  · cases same
    exact unwritten

theorem not_mayEnd_refused (r : Refusal) : ¬ s.MayEnd (.refused r) := by
  rintro (⟨t, next⟩ | ⟨f, fault, -⟩)
  · cases next
  · cases fault

/-- A command that reads samples ends as its read does. -/
theorem afterRead_mayEnd {α : Type} {r : Except Fault α} (unwritten : ∀ f, r = .error f → s.FaultsUnwritten f)
    (k : α → State) : s.MayEnd (afterRead r k) := by
  cases r with
  | ok a => exact mayEnd_next (k a)
  | error f => exact .inr ⟨f, rfl, unwritten f rfl⟩

theorem pairMatch_faultsUnwritten (t : Template) (p : Nat) (f : Fault) (h : s.pairMatch t p = .error f) :
    s.FaultsUnwritten f := by
  obtain ⟨j, rfl, -, unwritten⟩ := pairMatch_error h
  exact ⟨j, rfl, unwritten⟩

end

/-- Everything a command can answer: only the four receive commands read samples, and the others complete. -/
theorem exec_mayEnd (i : Instr) (s : State) : s.MayEnd (exec i s) := by
  cases i with
  | rxMatch t off => exact afterRead_mayEnd (pairMatch_faultsUnwritten t _) _
  | rxExpect t => exact afterRead_mayEnd (pairMatch_faultsUnwritten t _) _
  | rxPkt => exact afterRead_mayEnd (fun _ => decodePacket_error) _
  | rxFrame =>
    rcases Nat.lt_or_ge s.rxLen.toNat s.cfg.minRxSamples with short | enough
    · exact exec_rxFrame_of_short short ▸ mayEnd_next _
    · exact exec_rxFrame_of_enough enough ▸ afterRead_mayEnd (fun _ => scanLoop_error) _
  | nop | cksum | pack | unpack | txClear | emitPkt | txFrame | rxAdvance | softReset => exact mayEnd_next _

/-- Settles O38: a command's fault is one it may end with, and a refusal is not a way to end. -/
theorem onlyFaultIsUnwrittenSample : Obligations.OnlyFaultIsUnwrittenSample := fun i s =>
  ⟨fun _ fault => faultsUnwritten_of_mayEnd (fault ▸ exec_mayEnd i s),
    fun r refused => not_mayEnd_refused r (refused ▸ exec_mayEnd i s)⟩

/-! ### The step with nothing to serve -/

theorem step_of_idle {s : State} (idle : s.host = []) : step s = .next s := by
  rw [step, idle]

/-- Settles O3: the step has no access to serve. -/
theorem idleStepChangesNothing : Obligations.IdleStepChangesNothing := fun _ => step_of_idle

/-! ### The first pair of a receive command -/

/-- The scan's first step tests PREFIX at index 0, so its fault there is the scan's. -/
theorem scanFaults_start {s : State} {i : Nat} (room : 132 ≤ s.rxLen.toNat) (fault : s.pairFaultsAt .pktPrefix 0 i) :
    s.ScanFaults Scan.start (.unwrittenSample i) :=
  .here Scan.start _ room (scanStep_of_fault fault)

theorem run_of_step_fault {M : Host.Core} {s : M.State} {f : M.Fault} (fault : M.step s = .fault f) (k : Nat) :
    M.run (k + 1) s = .fault f := by
  rw [Host.Core.run, fault]

/-- Settles O37: each command's fault is that of its first match, and a run stops at the step that faults. -/
theorem unwrittenSampleFaults : Obligations.UnwrittenSampleFaults := by
  refine ⟨fun s t off i => exec_rxMatch_of_fault, fun s t i => exec_rxExpect_of_fault, fun s i fault => ?_,
    fun s i enough room fault => ?_, fun s f k fault => run_of_step_fault fault k⟩
  · exact exec_rxPkt_of_fault (decodePacket_of_prefix_fault fault)
  · exact (exec_rxFrame_fault_iff enough).1 (scanFaults_start room fault)

end Sys2Proof.Machine
end

section
/-! Power-on reset and the host's duty while BUSY = 1 (70_reset_and_hazards.md R280, R290): what the reset leaves, and
which accesses have a step. -/
namespace Sys2Proof.Machine

/-! ### Power-on reset -/

theorem readReg_powerOn (s : State) (r : Reg) : s.powerOn.readReg r = State.reset.readReg r := by
  cases r <;> rfl

theorem rxWord_powerOn (s : State) (i : Nat) : s.powerOn.rxWord i = none := by
  rw [State.rxWord, State.powerOn_mem]
  rfl

theorem rxw_powerOn (s : State) (i : Nat) : s.powerOn.rxw i = false := by
  rw [State.rxw, rxWord_powerOn, Option.isSome_none]

/-- Settles O2: the registers read as after reset, no sample is left written, and the window of TXMEM reads 0 because
the sequence is empty. -/
theorem powerOnResetSetsResetValues : Obligations.PowerOnResetSetsResetValues := by
  intro s rest h
  refine ⟨_, step_powerOn h, fun r => ?_, fun i => ⟨rxWord_powerOn _ i, rxw_powerOn _ i⟩,
    fun off above _ cap => ?_, State.powerOn_cfg _, State.powerOn_host _⟩
  · rw [readReg_powerOn, reset_readReg]
  · exact readWindow_of_txCount_zero (State.powerOn_txCount _) cap above

/-! ### Accesses while BUSY = 1 -/

section
variable {s : State}

/-- BUSY is tested before the size and the alignment (log 12). -/
theorem accessRefusal_of_busy {isRead : Bool} {addr : Nat} (busy : s.busy = true)
    (other : ¬ (isRead ∧ windowOffset addr = Reg.status.offset)) (size : Nat) :
    s.accessRefusal isRead addr size = some (.accessWhileBusy addr) :=
  if_pos ⟨busy, other⟩

/-- A read of STATUS has a step whatever BUSY is (log 13). -/
theorem accessRefusal_statusRead {addr : Nat} (ha : addr % 2 ^ 26 = Reg.status.offset) :
    s.accessRefusal true addr 4 = none := by
  have aligned : addr % 4 = 0 := aligned_of_offset ha
  rw [State.accessRefusal, if_neg (fun refused => refused.2 ⟨rfl, ha⟩), if_neg (by omega)]

variable {rest : List HostOp} {addr : Nat}

theorem step_of_refused_write {size : Nat} {v : Word} {r : Refusal} (h : s.host = .write addr size v :: rest)
    (refusal : s.accessRefusal false addr size = some r) : step s = .refused r := by
  have served : State.accessRefusal { s with host := rest } false addr size = some r := refusal
  simp only [step, h, State.serve, served]

theorem step_of_refused_read {size : Nat} {r : Refusal} (h : s.host = .read addr size :: rest)
    (refusal : s.accessRefusal true addr size = some r) : step s = .refused r := by
  have served : State.accessRefusal { s with host := rest } true addr size = some r := refusal
  simp only [step, h, State.serve, served]

theorem step_statusRead (h : s.host = .read addr 4 :: rest) (ha : addr % 2 ^ 26 = Reg.status.offset) :
    step s = .next { s with host := rest, busData := some s.statusWord } := by
  have served : State.accessRefusal { s with host := rest } true addr 4 = none := accessRefusal_statusRead ha
  have answer : State.readWindow { s with host := rest } (windowOffset addr) = s.statusWord := by
    rw [readWindow_withHost, windowOffset, ha, readWindow_reg, State.readReg]
  simp only [step, h, State.serve, served, answer]

/-- STATUS as a number while BUSY = 1: BUSY at bit 2 (10_state.md R24). -/
theorem statusWord_toNat_of_busy (busy : s.busy = true) :
    s.statusWord.toNat = s.valid.toNat + 2 * s.matched.toNat + 4 + 256 * s.err.code.toNat := by
  have layout : ∀ (e : BitVec 4) (m v : Bool),
      (0#20 ++ e ++ 0#5 ++ BitVec.ofBool true ++ BitVec.ofBool m ++ BitVec.ofBool v : Word).toNat
        = v.toNat + 2 * m.toNat + 4 + 256 * e.toNat := by decide
  rw [State.statusWord, busy]
  exact layout _ _ _

end

/-- Settles O12: only a read at STATUS's offset escapes `accessRefusal_of_busy`, and its answer is the STATUS word. -/
theorem busyServesOnlyStatusReads : Obligations.BusyServesOnlyStatusReads := by
  intro s rest addr size v busy
  refine ⟨fun h => ?_, fun other h => ?_, fun ha h => ?_⟩
  · exact step_of_refused_write h (accessRefusal_of_busy busy (fun read => Bool.false_ne_true read.1) size)
  · exact step_of_refused_read h (accessRefusal_of_busy busy (fun read => other read.2) size)
  · exact ⟨_, step_statusRead h ha, statusWord_toNat_of_busy busy⟩

end Sys2Proof.Machine
end
